-- ==== Sys2Proof/Word.lean ====
section
/-! DEFINITION. The value types of the block (00_scope.md R11 to R14). -/

namespace Sys2Proof

/-- A symbol is one byte (R11). -/
abbrev Byte := BitVec 8

/-- A host register is 32 bits wide (R16). -/
abbrev Word := BitVec 32

/-- A code: a bit sequence, first bit first; `true` is the bit 1 (R11, R14). -/
abbrev Code := List Bool

/-- A codebook: (symbol, code) entries in list order (R14). -/
abbrev Codebook := List (Byte × Code)

/-- A frequency table: (symbol, count) entries in list order (R13). -/
abbrev FreqTable := List (Byte × Nat)

/-- A context table: context, then its counter of next symbols, both in first-seen order (43_context_interface.md R192). -/
abbrev CtxTable := List (List Byte × FreqTable)

end Sys2Proof
end

