-- ==== Sys2Proof/Config.lean ====
section
/-! DEFINITION. The parameters of the block (00_scope.md R5 to R9, 43_context_interface.md R190, 20_memory.md R60)
and the free values that the spec leaves open (93_implementation_defined.md). -/

namespace Sys2Proof

/-- The address spaces of the host port (20_memory.md R51). -/
inductive Space where
  | reg | inBuf | outBuf | bits | model
  deriving DecidableEq, Repr

/-- The number of a space, by which the free values are told apart. -/
def Space.number : Space → Nat
  | .reg => 0 | .inBuf => 1 | .outBuf => 2 | .bits => 3 | .model => 4

/-- Which collaborator CTX_FN is attached (43_context_interface.md R190). DESIGN CHOICE (log 10): State is plain data, so
a collaborator is named; every `other n` is an unknown function. -/
inductive Collaborator where
  /-- The reference definition of R190: ADAPTIVE and CTX_SER over TRAIN. -/
  | reference
  /-- Any other collaborator; the block uses what it returns with no check (R191). -/
  | other (n : Nat)
  deriving DecidableEq, Repr

/-- Which serializer CTX_SER the reference collaborator uses (R196). DESIGN CHOICE (log 11). -/
inductive Serializer where
  /-- The illustrative serializer 95_test_vectors.md describes in words; not normative. -/
  | illustrative
  /-- Any other serializer: an opaque byte string of the table and the order. -/
  | other (n : Nat)
  deriving DecidableEq, Repr

/-- The parameters (00_scope.md R5 to R9). A step changes none of them. -/
structure Config where
  /-- W, the largest back-reference distance (R5). -/
  w : Nat
  /-- MIN_MATCH (R6). -/
  minMatch : Nat
  /-- MAX_MATCH (R6). -/
  maxMatch : Nat
  /-- MAX_IN, bytes (R7). -/
  maxIn : Nat
  /-- MAX_OUT, bytes (R7). -/
  maxOut : Nat
  /-- MAX_TOK, bytes (R7). -/
  maxTok : Nat
  /-- MAX_BITS, bits (R7). -/
  maxBits : Nat
  /-- MAX_MODEL, bytes (R7). -/
  maxModel : Nat
  /-- FREQ_BITS (R8). -/
  freqBits : Nat
  /-- CTX_ORDER (R9). -/
  ctxOrder : Nat
  /-- CTX_FN (43_context_interface.md R190). -/
  collaborator : Collaborator
  /-- CTX_SER (R9, 43_context_interface.md R196). -/
  serializer : Serializer
  /-- PLATFORM_MAP (20_memory.md R60): the platform's placement of the spaces; no rule of the block reads it. -/
  platformMap : List (Space × Nat)
  deriving DecidableEq, Repr

/-- The source's defaults 255, 3, 18 (R5, R6) and the reference configuration of R7 to R9.
DESIGN CHOICE (log 1) where the spec leaves the parameter open. -/
def Config.reference : Config where
  w := 255
  minMatch := 3
  maxMatch := 18
  maxIn := 4096
  maxOut := 4096
  maxTok := 8192
  maxBits := 65536
  maxModel := 4096
  freqBits := 64
  ctxOrder := 2
  collaborator := .reference
  serializer := .illustrative
  platformMap := []

/-- Free value: what `Serializer.other n` answers (93 row 16). -/
opaque Config.otherSerializer : Nat → CtxTable → Nat → List Byte

/-- Free value: what `Collaborator.other n` answers (93 row 17); its table is read up to repeated symbols (log 10). -/
opaque Config.otherCollaborator : Nat → List Byte → FreqTable × List Byte

/-- Free value: the data of a host read that returns UNSPEC, by space, address and epoch (93 rows 2 and 3; log 5, log 19). -/
opaque Config.unspecWord : Nat → Nat → Nat → Word

/-- Free value: how many host steps come between a CMD write and the engine's step (93 row 11; log 3). -/
opaque Config.engineDelay : Nat → Nat

/-- Free value: whether the reset comes first when an access is accepted in the step of a reset (93 row 10; log 4). -/
opaque Config.resetFirst : Nat → Bool

end Sys2Proof
end

