-- ==== Sys2Proof/Syntax.lean ====
section
/-! DEFINITION. The commands of the block: one constructor per row of spec/opcode_table.json (30_encoding.md R71). -/

namespace Sys2Proof

/-- A command. USE_CTX is the only operand a command word carries (30_encoding.md R70, R74);
it is legal with COMPRESS alone, so only COMPRESS has it here. -/
inductive Instr where
  /-- COMPRESS, and COMPRESS.CTX when USE_CTX = 1 (44_container_codec.md R218). -/
  | compress (useCtx : Bool)
  /-- DECOMPRESS (44_container_codec.md R219). -/
  | decompress
  /-- LZ_ENCODE (40_window_matcher.md R110). -/
  | lzEncode
  /-- LZ_DECODE (40_window_matcher.md R111). -/
  | lzDecode
  /-- HUF_BUILD (41_prefix_coder.md R144). -/
  | hufBuild
  /-- HUF_ENCODE (41_prefix_coder.md R145). -/
  | hufEncode
  /-- HUF_DECODE (41_prefix_coder.md R146). -/
  | hufDecode
  /-- CB_LOAD (41_prefix_coder.md R147). -/
  | cbLoad
  /-- BIT_PACK (42_bit_packer.md R175). -/
  | bitPack
  /-- BIT_UNPACK (42_bit_packer.md R176). -/
  | bitUnpack
  deriving DecidableEq, Repr

end Sys2Proof
end

