-- ==== Sys2Proof/WellFormed.lean ====
section
/-! DEFINITION. The checks: what a legal command word holds (30_encoding.md R70, R72, R73), and the legal ranges of the
parameters (00_scope.md R5 to R7). -/

namespace Sys2Proof

/-- The three fields of a command word (30_encoding.md R70). -/
structure CmdFields where
  /-- OPCODE, bits [7:0]. -/
  opcode : BitVec 8
  /-- USE_CTX, bit [8]. -/
  useCtx : Bool
  /-- RSVD, bits [31:9]. -/
  rsvd : BitVec 23
  deriving DecidableEq, Repr

/-- The ten opcodes of the opcode map (R71). -/
def knownOpcodes : List (BitVec 8) :=
  [0x01#8, 0x02#8, 0x10#8, 0x11#8, 0x20#8, 0x21#8, 0x22#8, 0x23#8, 0x30#8, 0x31#8]

/-- The opcode is one of the map (R72; all others are reserved, R73). -/
def CmdFields.opcodeKnown (f : CmdFields) : Bool := knownOpcodes.contains f.opcode

/-- RSVD must be 0 (R70). -/
def CmdFields.rsvdZero (f : CmdFields) : Bool := f.rsvd == 0#23

/-- USE_CTX is legal only with COMPRESS (R70). -/
def CmdFields.ctxOnlyWithCompress (f : CmdFields) : Bool := !f.useCtx || f.opcode == 0x01#8

/-- `legal(v)` of R72, on the fields. -/
def CmdFields.wf (f : CmdFields) : Bool := f.opcodeKnown && f.rsvdZero && f.ctxOnlyWithCompress

/-- The fields of each command's word (R71). -/
def Instr.fields : Instr → CmdFields
  | .compress u => ⟨0x01#8, u, 0#23⟩
  | .decompress => ⟨0x02#8, false, 0#23⟩
  | .lzEncode   => ⟨0x10#8, false, 0#23⟩
  | .lzDecode   => ⟨0x11#8, false, 0#23⟩
  | .hufBuild   => ⟨0x20#8, false, 0#23⟩
  | .hufEncode  => ⟨0x21#8, false, 0#23⟩
  | .hufDecode  => ⟨0x22#8, false, 0#23⟩
  | .cbLoad     => ⟨0x23#8, false, 0#23⟩
  | .bitPack    => ⟨0x30#8, false, 0#23⟩
  | .bitUnpack  => ⟨0x31#8, false, 0#23⟩

/-- A well-formed command: its word's fields are legal. -/
def Instr.wf (i : Instr) : Bool := i.fields.wf

/-- The legal ranges of W, MIN_MATCH, MAX_MATCH (R5, R6) and of the capacities (R7). -/
def Config.legal (c : Config) : Bool :=
  (1 ≤ c.w && c.w ≤ 255) &&
  (1 ≤ c.minMatch && c.minMatch ≤ c.maxMatch && c.maxMatch ≤ 255) &&
  (1 ≤ c.maxIn && c.maxIn < 2 ^ 32) &&
  (1 ≤ c.maxOut && c.maxOut < 2 ^ 32) &&
  (1 ≤ c.maxTok && c.maxTok < 2 ^ 32) &&
  (1 ≤ c.maxBits && c.maxBits < 2 ^ 32) &&
  (1 ≤ c.maxModel && c.maxModel < 2 ^ 32)

end Sys2Proof
end

