-- ==== Sys2Proof/Decode.lean ====
section
/-! DEFINITION. The decoder of command words (30_encoding.md R70 to R73), total and rejecting by name, and after it the encoder. -/

namespace Sys2Proof

/-- Why a word is no command (R73). Each ends the command with IllegalCommand (R72); the name says which check failed. -/
inductive DecodeError where
  /-- OPCODE is none of the map. -/
  | reservedOpcode
  /-- RSVD is not 0. -/
  | rsvdNonZero
  /-- USE_CTX = 1 with an opcode other than COMPRESS. -/
  | ctxWithoutCompress
  deriving DecidableEq, Repr

/-- The fields of a command word v: OPCODE = v[7:0], USE_CTX = v[8], RSVD = v[31:9] (R70). -/
def splitWord (v : Word) : CmdFields :=
  ⟨v.extractLsb' 0 8, v.getLsbD 8, v.extractLsb' 9 23⟩

/-- The word that holds the fields (R70). -/
def joinWord (f : CmdFields) : Word := f.rsvd ++ (BitVec.ofBool f.useCtx ++ f.opcode)

/-- The opcode map (R71). -/
def opcodeMap (opcode : BitVec 8) (useCtx : Bool) : Option Instr :=
  if opcode = 0x01#8 then some (.compress useCtx)
  else if opcode = 0x02#8 then some .decompress
  else if opcode = 0x10#8 then some .lzEncode
  else if opcode = 0x11#8 then some .lzDecode
  else if opcode = 0x20#8 then some .hufBuild
  else if opcode = 0x21#8 then some .hufEncode
  else if opcode = 0x22#8 then some .hufDecode
  else if opcode = 0x23#8 then some .cbLoad
  else if opcode = 0x30#8 then some .bitPack
  else if opcode = 0x31#8 then some .bitUnpack
  else none

/-- Decoding of a command word (R72). -/
def decode (v : Word) : Except DecodeError Instr :=
  let f := splitWord v
  if f.rsvd ≠ 0#23 then .error .rsvdNonZero
  else if f.useCtx = true ∧ f.opcode ≠ 0x01#8 then .error .ctxWithoutCompress
  else match opcodeMap f.opcode f.useCtx with
    | some i => .ok i
    | none => .error .reservedOpcode

/-- The word of a command (R70, R71). -/
def encode (i : Instr) : Word := joinWord i.fields

/-- The command the decoder reads from the low `nbits` bits of w, the bits above them being 0. Every command word is 32
bits, written in one register access (R75), so no byte order applies (20_memory.md R57). -/
def decodeTableWord (nbits w : Nat) : Option Instr :=
  match decode (BitVec.ofNat 32 (w % 2 ^ nbits)) with
  | .ok i => some i
  | .error _ => none

end Sys2Proof
end

