-- ==== Sys2Proof/Machine/Errors.lean ====
section
/-! DEFINITION. The errors a command can end with, their ERRCODE and ERRINFO values, and the destination sets
(60_exceptions.md R240, R244, R245). -/

namespace Sys2Proof.Machine

/-- The causes of CORRUPT_CONTAINER (R240). -/
inductive ContainerCause where
  | shortBlob | textTooLong | padRange | malformedText | repeatedSymbol | repeatedCode | padWithoutPayload
  deriving DecidableEq, Repr

/-- The sub-codes of CORRUPT_CONTAINER (R240). -/
def ContainerCause.subCode : ContainerCause → Nat
  | .shortBlob => 1
  | .textTooLong => 2
  | .padRange => 3
  | .malformedText => 4
  | .repeatedSymbol => 5
  | .repeatedCode => 6
  | .padWithoutPayload => 7

/-- The buffers of CAPACITY (R240). -/
inductive CapBuffer where
  | inBuf | outBuf | tok | bits | freq | model
  deriving DecidableEq, Repr

/-- The buffer ids of CAPACITY (R240). -/
def CapBuffer.bufferId : CapBuffer → Nat
  | .inBuf => 1
  | .outBuf => 2
  | .tok => 3
  | .bits => 4
  | .freq => 5
  | .model => 6

/-- The errors a command can raise (R240). -/
inductive CmdError where
  | corruptContainer (c : ContainerCause)
  | unknownSymbol (b : Byte)
  /-- `p` is the offset of the failing token's tag byte in the token byte stream. -/
  | corruptStream (p : Nat)
  | illegalCommand (v : Word)
  | capacity (b : CapBuffer)
  deriving DecidableEq, Repr

/-- ERRCODE values (R240). -/
def CmdError.code : CmdError → BitVec 8
  | .corruptContainer _ => 1#8
  | .unknownSymbol _ => 2#8
  | .corruptStream _ => 3#8
  | .illegalCommand _ => 4#8
  | .capacity _ => 5#8

/-- ERRINFO values (R245). -/
def CmdError.info : CmdError → Word
  | .corruptContainer c => BitVec.ofNat 32 c.subCode
  | .unknownSymbol b => b.setWidth 32
  | .corruptStream p => BitVec.ofNat 32 p
  | .illegalCommand v => v
  | .capacity b => BitVec.ofNat 32 b.bufferId

/-- The items a destination set can hold (R244). -/
inductive Dest where
  | out | outLen | tokCount | cb | cbCount | bits | bitsLen | pad | model | modelLen | ctxPresent | ctxValid
  deriving DecidableEq, Repr

/-- The destination set of each command (R244, 30_encoding.md R74). -/
def destSet : Instr → List Dest
  | .compress _ => [.out, .outLen, .tokCount, .cb, .cbCount, .bits, .bitsLen, .pad, .model, .modelLen]
  | .decompress =>
    [.out, .outLen, .tokCount, .cb, .cbCount, .bits, .bitsLen, .pad, .model, .modelLen, .ctxPresent, .ctxValid]
  | .lzEncode => [.out, .outLen, .tokCount]
  | .lzDecode => [.out, .outLen, .tokCount]
  | .hufBuild => [.cb, .cbCount, .out, .outLen]
  | .hufEncode => [.bits, .bitsLen]
  | .hufDecode => [.out, .outLen]
  | .cbLoad => [.cb, .cbCount]
  | .bitPack => [.out, .outLen, .pad]
  | .bitUnpack => [.bits, .bitsLen]

/-- A check of a command: go on, or raise the error (60_exceptions.md R246, R247). -/
def check (ok : Bool) (e : CmdError) : Except CmdError Unit :=
  if ok then .ok () else .error e

end Sys2Proof.Machine
end

