-- ==== Sys2Proof/Machine/State.lean ====
section
/-! DEFINITION. The state of the block (10_state.md), of the host port and its pending operations; the reasons a step can
stop; the state after reset (10_state.md R44). -/

namespace Sys2Proof.Machine

/-- Byte buffers are lists of Host's cells; a cell that is not listed holds no value (10_state.md R45, log 15). -/
abbrev Memory := List Host.Cell

/-- The BITS buffer: one bit per address (10_state.md R39, 20_memory.md R55), in the same form as `Memory`. -/
abbrev BitMemory := List (Nat × Bool)

/-- The engine phase (10_state.md R35). It reads as STATUS.BUSY. -/
inductive Phase where
  | idle | busy
  deriving DecidableEq, Repr

/-- The host registers (10_state.md R21). -/
inductive Reg where
  | id | cmd | status | errCode | errInfo | inLen | outLen | bitsLen | pad | modelLen | cbCount | tokCount
  deriving DecidableEq, Repr

/-- One host access (20_memory.md R50): MemRead(space, addr, n) or MemWrite(space, addr, n, v). -/
inductive Access where
  | read (space : Space) (addr n : Nat)
  /-- A byte access takes v[7:0] (log 20). -/
  | write (space : Space) (addr n : Nat) (v : Word)
  deriving DecidableEq, Repr

/-- One pending operation of the host or of the platform. -/
inductive HostOp where
  /-- One port access (30_encoding.md R76: WR, RD, WB, RB). -/
  | access (a : Access)
  /-- WAIT: repeat RD STATUS until BUSY reads 0 (30_encoding.md R76). -/
  | wait
  /-- DUMPOUT: RD OUT_LEN, then RB OUT, j for each j below what it read (30_encoding.md R77). -/
  | dumpOut
  /-- The platform asserts reset (70_reset_and_hazards.md R270). -/
  | reset
  /-- An access the port accepts in the same step as a reset (70_reset_and_hazards.md R271). -/
  | resetWith (a : Access)
  deriving DecidableEq, Repr

/-- What the host port answered last. -/
inductive HostReply where
  /-- No access yet. -/
  | none
  /-- A write was accepted, stored or ignored (20_memory.md R54, R56). -/
  | ack
  /-- A register read. -/
  | word (v : Word)
  /-- A buffer read. -/
  | byte (v : Byte)
  /-- A register read that returns UNSPEC: v is a free value (log 5). -/
  | unspecWord (v : Word)
  /-- A buffer read that returns UNSPEC: v is a free value (log 5). -/
  | unspecByte (v : Byte)
  deriving DecidableEq, Repr

/-- The state. Parameters first, then what the spec gives the block, then the model's own fields for the two agents. -/
structure State where
  /-- The parameters (00_scope.md R5 to R9); no step changes them (log 1). -/
  cfg : Config
  /-- Engine phase, STATUS.BUSY (R35). -/
  phase : Phase
  /-- The latched command word CUR_CMD (R35, R36). -/
  curCmd : Word
  /-- STATUS.DONE (R24). -/
  done : Bool
  /-- STATUS.ERR (R24). -/
  err : Bool
  /-- STATUS.CTX_PRESENT (R24). -/
  ctxPresent : Bool
  /-- STATUS.CTX_VALID (R24). -/
  ctxValid : Bool
  /-- ERRCODE[7:0] (R25). -/
  errCode : BitVec 8
  /-- ERRINFO (R26). -/
  errInfo : Word
  /-- IN_LEN (R27). -/
  inLen : Word
  /-- OUT_LEN (R28). -/
  outLen : Word
  /-- BITS_LEN (R29). -/
  bitsLen : Word
  /-- PAD[7:0] (R30). -/
  pad : BitVec 8
  /-- MODEL_LEN (R31). -/
  modelLen : Word
  /-- CB_COUNT[8:0] (R32). -/
  cbCount : BitVec 9
  /-- TOK_COUNT (R33). -/
  tokCount : Word
  /-- The IN buffer (R37). -/
  inBuf : Memory
  /-- The OUT buffer (R38). -/
  outBuf : Memory
  /-- The BITS buffer (R39). -/
  bitsBuf : BitMemory
  /-- The MODEL buffer (R40). -/
  modelBuf : Memory
  /-- The codebook table CB (R41). -/
  cb : Codebook
  /-- The token byte buffer TOK (R42); a command runs in one step and leaves it with no value (log 16). -/
  tok : Memory
  /-- The pending operations of the host and the platform, next first (log 2). -/
  host : List HostOp
  /-- For the commands still to be started: host steps before the engine's step (log 3). -/
  delays : List Nat
  /-- Host steps still to come before the engine's step of the running command (70_reset_and_hazards.md R285, log 3). -/
  engineDelay : Nat
  /-- The counter the free values are applied to (log 19). -/
  epoch : Nat
  /-- The last answer of the host port (log 18). -/
  reply : HostReply
  deriving DecidableEq, Repr

/-- Why the machine stops with a fault. -/
inductive Fault where
  /-- A bus error on the host port (20_memory.md R52, R53; 93 row 5): raised by a host access whose space, address and
  width name no register or cell. The block's state is unchanged. Safe (log 13). -/
  | busError (space : Space) (addr n : Nat)
  /-- A command reads the input cell `addr` (of IN or BITS, below the length register), which holds no value (10_state.md
  R45, 70_reset_and_hazards.md R274; 93 row 1): raised by every command's operand read (log 8). Or the host reads while IDLE a
  cell that holds no value and is not beyond a length register (60_exceptions.md R242): raised by a host access (log 25, log 26). Safe. -/
  | unwrittenCell (space : Space) (addr : Nat)
  deriving DecidableEq, Repr

/-- Why an instruction has no meaning. -/
inductive Refusal where
  /-- Rejected by name in exec's arm: not modelled yet. No arm raises it: every command has its meaning. Safe. -/
  | notModelled (mnemonic : String)
  deriving DecidableEq, Repr

/-- The state right after reset (10_state.md R44, 70_reset_and_hazards.md R270). CUR_CMD is UNSPEC there: DESIGN CHOICE 0
(log 7). The parameters are the reference configuration (log 1) and nothing is pending (log 22). -/
def State.reset : State where
  cfg := Config.reference
  phase := .idle
  curCmd := 0#32
  done := false
  err := false
  ctxPresent := false
  ctxValid := false
  errCode := 0#8
  errInfo := 0#32
  inLen := 0#32
  outLen := 0#32
  bitsLen := 0#32
  pad := 0#8
  modelLen := 0#32
  cbCount := 0#9
  tokCount := 0#32
  inBuf := []
  outBuf := []
  bitsBuf := []
  modelBuf := []
  cb := []
  tok := []
  host := []
  delays := []
  engineDelay := 0
  epoch := 0
  reply := .none

end Sys2Proof.Machine
end

