-- ==== Sys2Proof/Machine/Flags.lean ====
section
/-! DEFINITION. STATUS, the block's only flags (10_state.md R24, R46): its word, and how a command's start and end set it. -/

namespace Sys2Proof.Machine

/-- STATUS.BUSY: the engine phase (10_state.md R35). -/
def State.busy (s : State) : Bool := s.phase == .busy

/-- The STATUS word: BUSY [0], DONE [1], ERR [2], CTX_PRESENT [3], CTX_VALID [4]; bits [31:5] read 0 (R24). -/
def State.statusWord (s : State) : Word :=
  (BitVec.ofBool s.ctxValid ++ (BitVec.ofBool s.ctxPresent ++ (BitVec.ofBool s.err ++
    (BitVec.ofBool s.done ++ BitVec.ofBool s.busy)))).setWidth 32

/-- The flags at a command's start: BUSY set, all others cleared (R36). -/
def State.flagsStart (s : State) : State :=
  { s with phase := .busy, done := false, err := false, ctxPresent := false, ctxValid := false }

/-- The flags when a command ends without error: BUSY cleared, DONE set, ERR clear (60_exceptions.md R243). -/
def State.flagsDone (s : State) : State :=
  { s with phase := .idle, done := true, err := false }

/-- The flags when a command ends with an error: also ERR set and both trailer flags cleared (60_exceptions.md R243). -/
def State.flagsError (s : State) : State :=
  { s with phase := .idle, done := true, err := true, ctxPresent := false, ctxValid := false }

/-- The trailer flags of a successful DECOMPRESS (44_container_codec.md R219). -/
def State.setTrailerFlags (s : State) (present valid : Bool) : State :=
  { s with ctxPresent := present, ctxValid := valid }

end Sys2Proof.Machine
end

