-- ==== Sys2Proof/Machine/Ops.lean ====
section
/-! DEFINITION. The named operations over the buffers and registers, the start of a command (10_state.md R36), its end, and
the one way an error ends a command (60_exceptions.md R243, R244), which is this block's only exception entry; it has no return
(R249). -/

namespace Sys2Proof.Machine

/-! ## Buffers: lists of (address, value), addresses strictly rising; an unlisted cell holds no value -/

/-- The canonical form of a buffer: addresses strictly rising. -/
def Memory.wf {α : Type} (m : List (Nat × α)) : Bool := decide ((m.map Prod.fst).Pairwise (· < ·))

/-- Every listed address is below the buffer's size. -/
def Memory.within {α : Type} (m : List (Nat × α)) (size : Nat) : Bool := m.all (fun c => c.1 < size)

/-- The value of cell `a`, if it holds one (10_state.md R45). -/
def Memory.read {α : Type} : List (Nat × α) → Nat → Option α
  | [], _ => none
  | (k, v) :: m, a => if k = a then some v else Memory.read m a

/-- Store v at cell `a`. -/
def Memory.write {α : Type} : List (Nat × α) → Nat → α → List (Nat × α)
  | [], a, v => [(a, v)]
  | (k, w) :: m, a, v =>
    if a < k then (a, v) :: (k, w) :: m
    else if a = k then (a, v) :: m
    else (k, w) :: Memory.write m a v

/-- The buffer whose cells k, k+1, … hold the values of the list and no other cell holds a value. -/
def Memory.ofListFrom {α : Type} (k : Nat) : List α → List (Nat × α)
  | [] => []
  | v :: vs => (k, v) :: Memory.ofListFrom (k + 1) vs

/-- The buffer that holds exactly the list, from cell 0. -/
def Memory.ofList {α : Type} (vs : List α) : List (Nat × α) := Memory.ofListFrom 0 vs

/-- The n cells from k on, or the first of them that holds no value. -/
def Memory.readRange {α : Type} (m : List (Nat × α)) : Nat → Nat → Except Nat (List α)
  | _, 0 => .ok []
  | k, n + 1 =>
    match Memory.read m k with
    | none => .error k
    | some v =>
      match Memory.readRange m (k + 1) n with
      | .ok vs => .ok (v :: vs)
      | .error j => .error j

/-! ## What a command writes -/

/-- OUT[0 : len] <- bytes, OUT_LEN <- len; cells at OUT_LEN and above hold no value (10_state.md R38). -/
def State.putOut (s : State) (bytes : List Byte) : State :=
  { s with outBuf := Memory.ofList bytes, outLen := BitVec.ofNat 32 bytes.length }

/-- BITS[0 : len] <- bits, BITS_LEN <- len; cells above hold no value (10_state.md R39, R45; log 9). -/
def State.putBits (s : State) (bits : List Bool) : State :=
  { s with bitsBuf := Memory.ofList bits, bitsLen := BitVec.ofNat 32 bits.length }

/-- MODEL[0 : len] <- model, MODEL_LEN <- len; cells above hold no value (10_state.md R40, R45; log 9). -/
def State.putModel (s : State) (model : List Byte) : State :=
  { s with modelBuf := Memory.ofList model, modelLen := BitVec.ofNat 32 model.length }

/-- CB <- cb, CB_COUNT <- len(cb) (41_prefix_coder.md R143). -/
def State.putCodebook (s : State) (cb : Codebook) : State :=
  { s with cb := cb, cbCount := BitVec.ofNat 9 cb.length }

/-- TOK_COUNT <- n (10_state.md R33). -/
def State.putTokCount (s : State) (n : Nat) : State := { s with tokCount := BitVec.ofNat 32 n }

/-- PAD <- pad (10_state.md R30). -/
def State.putPad (s : State) (pad : Nat) : State := { s with pad := BitVec.ofNat 8 pad }

/-! ## Start and end of a command -/

/-- How many host steps come before the engine's step of the next command (70_reset_and_hazards.md R285): the next of
`delays`, or the free value when there is none (log 3). -/
def State.nextDelay (s : State) : Nat :=
  match s.delays with
  | d :: _ => d
  | [] => Config.engineDelay s.epoch

/-- Command start: a host write of v to CMD while IDLE, one atomic step (10_state.md R36). -/
def State.startCommand (s : State) (v : Word) : State :=
  { s.flagsStart with
    curCmd := v, errCode := 0#8, errInfo := 0#32
    engineDelay := s.nextDelay, delays := s.delays.tail }

/-- A command ends without error (60_exceptions.md R243): ERRCODE, ERRINFO and the flags. TOK holds no value between commands
(10_state.md R42). -/
def State.endDone (s : State) : State :=
  { s.flagsDone with errCode := 0#8, errInfo := 0#32, tok := [], epoch := s.epoch + 1 }

/-- What an error does to one item of the destination set (60_exceptions.md R244). The trailer flags are cleared by
`flagsError` as well, as R243 says. -/
def State.clearDest (s : State) : Dest → State
  | .out => { s with outBuf := [] }
  | .outLen => { s with outLen := 0#32 }
  | .tokCount => { s with tokCount := 0#32 }
  | .cb => { s with cb := [] }
  | .cbCount => { s with cbCount := 0#9 }
  | .bits => { s with bitsBuf := [] }
  | .bitsLen => { s with bitsLen := 0#32 }
  | .pad => { s with pad := 0#8 }
  | .model => { s with modelBuf := [] }
  | .modelLen => { s with modelLen := 0#32 }
  | .ctxPresent => { s with ctxPresent := false }
  | .ctxValid => { s with ctxValid := false }

/-- `raise E(info)` with the destination set `ds` (60_exceptions.md R243, R244): the set is cleared, the error recorded, the
phase IDLE. It is one next state: the block has no handler and transfers control nowhere (R249). -/
def State.raiseError (s : State) (ds : List Dest) (e : CmdError) : State :=
  let c := ds.foldl State.clearDest s
  { c.flagsError with errCode := e.code, errInfo := e.info, tok := [], epoch := s.epoch + 1 }

/-- An illegal command word: IllegalCommand(v), no destination set (30_encoding.md R72, 60_exceptions.md R244). -/
def State.raiseIllegal (s : State) : State := s.raiseError [] (.illegalCommand s.curCmd)

/-- The command the engine runs: CUR_CMD decoded (30_encoding.md R72). -/
def State.fetchCommand (s : State) : Except DecodeError Instr := decode s.curCmd

/-! ## Reset -/

/-- The reset step (70_reset_and_hazards.md R270, R271): every item of the block's state takes its value of R44. The
parameters and what the host still has pending are not state of the block and stay (log 17). -/
def State.afterReset (s : State) : State :=
  { State.reset with cfg := s.cfg, host := s.host, delays := s.delays, epoch := s.epoch + 1 }

end Sys2Proof.Machine
end

