-- ==== Sys2Proof/Machine/Operands.lean ====
section
/-! DEFINITION. The operands of the commands (30_encoding.md R74): IN[0 : IN_LEN] and BITS[0 : BITS_LEN], their length checks,
and the one way a command's body is run over them. -/

namespace Sys2Proof.Machine

/-- What reading a command's input gives. -/
inductive Operand (α : Type) where
  /-- The whole input. -/
  | data (vs : List α)
  /-- The length register exceeds the buffer: the command raises this error before any cell is read. -/
  | tooLong (e : CmdError)
  /-- A cell below the length register holds no value (10_state.md R45). -/
  | unwritten (space : Space) (addr : Nat)
  deriving DecidableEq, Repr

/-- IN[0 : IN_LEN]: Capacity(1) when IN_LEN > MAX_IN (60_exceptions.md R246, R247), else the bytes. -/
def State.inOperand (s : State) : Operand Byte :=
  if s.inLen.toNat > s.cfg.maxIn then .tooLong (.capacity .inBuf)
  else match Memory.readRange s.inBuf 0 s.inLen.toNat with
    | .ok vs => .data vs
    | .error j => .unwritten .inBuf j

/-- BITS[0 : BITS_LEN]: Capacity(4) when BITS_LEN > MAX_BITS (60_exceptions.md R246, R247), else the bits. -/
def State.bitsOperand (s : State) : Operand Bool :=
  if s.bitsLen.toNat > s.cfg.maxBits then .tooLong (.capacity .bits)
  else match Memory.readRange s.bitsBuf 0 s.bitsLen.toNat with
    | .ok vs => .data vs
    | .error j => .unwritten .bits j

/-- Run a command: read the input, run its body on it, and end with the body's outputs or with the error, which clears the
destination set `ds` (60_exceptions.md R243). -/
def runCommand {α : Type} (ds : List Dest) (input : Operand α) (s : State)
    (body : List α → Except CmdError State) : Host.Outcome State Fault Refusal :=
  match input with
  | .tooLong e => .next (s.raiseError ds e)
  | .unwritten sp a => .fault (.unwrittenCell sp a)
  | .data vs =>
    match body vs with
    | .ok t => .next t.endDone
    | .error e => .next (s.raiseError ds e)

end Sys2Proof.Machine
end

