-- ==== Sys2Proof/Machine/BitPacker.lean ====
section
/-! DEFINITION. The Bit Packer (42_bit_packer.md, 30_encoding.md R85), BIT_PACK and BIT_UNPACK. -/

namespace Sys2Proof.Machine

/-- The pad PACK adds (R170). -/
def padOf (len : Nat) : Nat := (8 - len % 8) % 8

/-- A bit as a number. -/
def bitNat (b : Bool) : Nat := if b then 1 else 0

/-- The byte of a group of eight bits, first bit most significant (R170). -/
def byteOfBits (b0 b1 b2 b3 b4 b5 b6 b7 : Bool) : Byte :=
  BitVec.ofNat 8 (bitNat b0 * 2 ^ 7 + bitNat b1 * 2 ^ 6 + bitNat b2 * 2 ^ 5 + bitNat b3 * 2 ^ 4 +
    bitNat b4 * 2 ^ 3 + bitNat b5 * 2 ^ 2 + bitNat b6 * 2 ^ 1 + bitNat b7 * 2 ^ 0)

/-- The bytes of a bit sequence whose length is a multiple of 8 (R170). -/
def packGroups : List Bool → List Byte
  | b0 :: b1 :: b2 :: b3 :: b4 :: b5 :: b6 :: b7 :: rest => byteOfBits b0 b1 b2 b3 b4 b5 b6 b7 :: packGroups rest
  | _ => []

/-- PACK(bits) (R170): the bytes and the pad. -/
def pack (bits : List Bool) : List Byte × Nat :=
  let pad := padOf bits.length
  (packGroups (bits ++ List.replicate pad false), pad)

/-- The eight bits of a byte, most significant first (R172). -/
def bitsOfByte (b : Byte) : List Bool :=
  [b.getLsbD 7, b.getLsbD 6, b.getLsbD 5, b.getLsbD 4, b.getLsbD 3, b.getLsbD 2, b.getLsbD 1, b.getLsbD 0]

/-- The expansion and removal of UNPACK (R172), after its checks. -/
def unpackBits (bytes : List Byte) (pad : Nat) : List Bool :=
  let bits := bytes.flatMap bitsOfByte
  bits.take (bits.length - pad)

/-- UNPACK(bytes, pad) with its checks in order (R172, R173). -/
def unpack (bytes : List Byte) (pad : Nat) : Except CmdError (List Bool) := do
  check (pad ≤ 7) (.corruptContainer .padRange)
  check (!bytes.isEmpty || pad == 0) (.corruptContainer .padWithoutPayload)
  .ok (unpackBits bytes pad)

/-! ## Commands -/

/-- The body of BIT_PACK (R175). -/
def bitPackBody (s : State) (bits : List Bool) : Except CmdError State := do
  let p := pack bits
  check (p.1.length ≤ s.cfg.maxOut) (.capacity .outBuf)
  .ok ((s.putOut p.1).putPad p.2)

/-- BIT_PACK (R175). -/
def execBitPack (s : State) : Host.Outcome State Fault Refusal :=
  runCommand (destSet .bitPack) s.bitsOperand s (bitPackBody s)

/-- The body of BIT_UNPACK (R176). -/
def bitUnpackBody (s : State) (bytes : List Byte) : Except CmdError State := do
  let bits ← unpack bytes s.pad.toNat
  check (bits.length ≤ s.cfg.maxBits) (.capacity .bits)
  .ok (s.putBits bits)

/-- BIT_UNPACK (R176). -/
def execBitUnpack (s : State) : Host.Outcome State Fault Refusal :=
  runCommand (destSet .bitUnpack) s.inOperand s (bitUnpackBody s)

end Sys2Proof.Machine
end

