-- ==== Sys2Proof/Machine/PrefixCoder.lean ====
section
/-! DEFINITION. The Frequency Model and the Prefix Coder (41_prefix_coder.md), the codebook text (30_encoding.md R81, R82, R86),
HUF_BUILD, HUF_ENCODE, HUF_DECODE and CB_LOAD. -/

namespace Sys2Proof.Machine

/-! ## Frequency Model -/

/-- Count one occurrence of b: at its entry, or in a new entry at the end (R130). -/
def FreqTable.bump : FreqTable → Byte → FreqTable
  | [], b => [(b, 1)]
  | (x, n) :: t, b => if x = b then (x, n + 1) :: t else (x, n) :: FreqTable.bump t b

/-- FREQ(s) (R130): symbols in the order of their first occurrence. -/
def freqOf (s : List Byte) : FreqTable := s.foldl FreqTable.bump []

/-- The sum of a table's counts (R133). -/
def FreqTable.total (t : FreqTable) : Nat := (t.map Prod.snd).sum

/-- The count of a symbol, 0 when it has no entry. -/
def FreqTable.count : FreqTable → Byte → Nat
  | [], _ => 0
  | (x, n) :: t, b => if x = b then n else FreqTable.count t b

/-- The check of R133: the counts sum to at most 2^FREQ_BITS − 1. -/
def checkTotal (c : Config) (t : FreqTable) : Except CmdError Unit :=
  check (FreqTable.total t ≤ 2 ^ c.freqBits - 1) (.capacity .freq)

/-! ## Tree builder and code generator -/

/-- A Huffman tree (00_scope.md R15). -/
inductive Tree where
  | leaf (sym : Byte) (weight : Nat)
  | node (weight : Nat) (left right : Tree)
  deriving DecidableEq, Repr

/-- The weight of a node. -/
def Tree.weight : Tree → Nat
  | .leaf _ w => w
  | .node w _ _ => w

/-- Put t before the first node that is not lighter. -/
def insertByWeight (t : Tree) : List Tree → List Tree
  | [] => [t]
  | u :: us => if t.weight ≤ u.weight then t :: u :: us else u :: insertByWeight t us

/-- The stable sort by ascending weight (R132): nodes of equal weight keep their order. -/
def sortByWeight : List Tree → List Tree
  | [] => []
  | t :: ts => insertByWeight t (sortByWeight ts)

/-- While more than one node remains: sort, take the first two, append the merged node at the back (R132). `fuel` bounds the
number of merges. -/
def mergeNodes : Nat → List Tree → List Tree
  | 0, ts => ts
  | fuel + 1, ts =>
    match sortByWeight ts with
    | a :: b :: rest => mergeNodes fuel (rest ++ [.node (a.weight + b.weight) a b])
    | ts => ts

/-- BUILD_TREE(freq) (R132); none is EMPTY. -/
def buildTree (freq : FreqTable) : Option Tree :=
  (mergeNodes freq.length (freq.map (fun e => .leaf e.1 e.2))).head?

/-- The left-first walk of R134: 0 on a left edge, 1 on a right edge. -/
def codesFrom (path : Code) : Tree → Codebook
  | .leaf s _ => [(s, path)]
  | .node _ l r => codesFrom (path ++ [false]) l ++ codesFrom (path ++ [true]) r

/-- GEN_CODES(root) (R134), with the one-leaf tree's code "0" (R135). -/
def genCodes : Option Tree → Codebook
  | none => []
  | some (.leaf s _) => [(s, [false])]
  | some t => codesFrom [] t

/-- The codebook of a frequency table. -/
def codebookOf (freq : FreqTable) : Codebook := genCodes (buildTree freq)

/-! ## Codebook text -/

/-- The longest code the codebook table can hold (00_scope.md R10). -/
def maxCodeLen : Nat := 255

/-- The character of a digit, '0' = 0x30 (30_encoding.md R86). -/
def digitChar (n : Nat) : Byte := BitVec.ofNat 8 (0x30 + n)

/-- ':' (30_encoding.md R86). -/
def colon : Byte := 0x3A#8

/-- ';' (30_encoding.md R86). -/
def semicolon : Byte := 0x3B#8

/-- D(s): the decimal spelling, no leading zeros (30_encoding.md R81). -/
def decimalText (s : Byte) : List Byte :=
  let n := s.toNat
  if n < 10 then [digitChar n]
  else if n < 100 then [digitChar (n / 10), digitChar (n % 10)]
  else [digitChar (n / 100), digitChar (n / 10 % 10), digitChar (n % 10)]

/-- C(c): the bits as '0' and '1', first bit first (30_encoding.md R81). -/
def codeText (c : Code) : List Byte := c.map (fun b => digitChar (if b then 1 else 0))

/-- One entry of the text. -/
def entryText (e : Byte × Code) : List Byte := decimalText e.1 ++ colon :: codeText e.2

/-- CB_TEXT(cb) (R136): the entries in list order, joined by ';'. -/
def cbText : Codebook → List Byte
  | [] => []
  | [e] => entryText e
  | e :: cb => entryText e ++ semicolon :: cbText cb

/-- The pieces of a byte string between separators; n separators give n + 1 pieces. -/
def splitBytes (sep : Byte) : List Byte → List (List Byte)
  | [] => [[]]
  | b :: bs =>
    if b = sep then [] :: splitBytes sep bs
    else match splitBytes sep bs with
      | [] => [[b]]
      | p :: ps => (b :: p) :: ps

/-- A DIGIT's value (30_encoding.md R82). -/
def digitValue (b : Byte) : Option Nat :=
  if 0x30 ≤ b.toNat ∧ b.toNat ≤ 0x39 then some (b.toNat - 0x30) else none

/-- The number a string of DIGITs spells, `acc` being what came before. -/
def decimalValue : Nat → List Byte → Option Nat
  | acc, [] => some acc
  | acc, b :: bs =>
    match digitValue b with
    | some d => decimalValue (10 * acc + d) bs
    | none => none

/-- symbol = 1*3DIGIT, value 0..255 (30_encoding.md R82). -/
def parseSymbol (t : List Byte) : Option Byte :=
  if 1 ≤ t.length ∧ t.length ≤ 3 then
    match decimalValue 0 t with
    | some n => if n ≤ 255 then some (BitVec.ofNat 8 n) else none
    | none => none
  else none

/-- The bits a string of '0' and '1' spells. -/
def parseBits : List Byte → Option Code
  | [] => some []
  | b :: bs =>
    match parseBits bs with
    | none => none
    | some c => if b = 0x30#8 then some (false :: c) else if b = 0x31#8 then some (true :: c) else none

/-- code = 1*255( "0" / "1" ) (30_encoding.md R82). -/
def parseCode (t : List Byte) : Option Code :=
  if 1 ≤ t.length ∧ t.length ≤ maxCodeLen then parseBits t else none

/-- entry = symbol ":" code (30_encoding.md R82). -/
def parseEntry (t : List Byte) : Option (Byte × Code) :=
  match parseSymbol (t.takeWhile (· ≠ colon)), t.dropWhile (· ≠ colon) with
  | some s, _ :: c =>
    match parseCode c with
    | some code => some (s, code)
    | none => none
  | _, _ => none

/-- The scan of R137 over the entries, `seen` being the entries before: the first failing entry decides. Within one
entry, syntax comes before a repeated symbol and that before a repeated code: DEDUCED (log 12). -/
def parseEntries (seen : Codebook) : List (List Byte) → Except CmdError Codebook
  | [] => .ok seen
  | t :: ts =>
    match parseEntry t with
    | none => .error (.corruptContainer .malformedText)
    | some e =>
      if e.1 ∈ seen.map Prod.fst then .error (.corruptContainer .repeatedSymbol)
      else if e.2 ∈ seen.map Prod.snd then .error (.corruptContainer .repeatedCode)
      else parseEntries (seen ++ [e]) ts

/-- CB_PARSE(T) (R137). The empty text is the empty codebook. -/
def cbParse (t : List Byte) : Except CmdError Codebook :=
  if t.isEmpty then .ok [] else parseEntries [] (splitBytes semicolon t)

/-! ## Encoder and decoder -/

/-- The code of a symbol. -/
def codeOf : Codebook → Byte → Option Code
  | [], _ => none
  | (s, c) :: cb, b => if s = b then some c else codeOf cb b

/-- The symbol of a code. -/
def symbolOf : Codebook → Code → Option Byte
  | [], _ => none
  | (s, c) :: cb, w => if c = w then some s else symbolOf cb w

/-- HUF_ENC(s, cb) (R138); UnknownSymbol at the first symbol with no entry (R139). -/
def hufEnc (cb : Codebook) : List Byte → Except CmdError (List Bool)
  | [] => .ok []
  | b :: bs =>
    match codeOf cb b with
    | none => .error (.unknownSymbol b)
    | some c =>
      match hufEnc cb bs with
      | .ok bits => .ok (c ++ bits)
      | .error e => .error e

/-- The scan of HUF_DEC with `buf` accumulated so far (R140); what is left in it at the end is discarded (R141). -/
def hufDecFrom (cb : Codebook) : Code → List Bool → List Byte
  | _, [] => []
  | buf, bit :: bits =>
    match symbolOf cb (buf ++ [bit]) with
    | some s => s :: hufDecFrom cb [] bits
    | none => hufDecFrom cb (buf ++ [bit]) bits

/-- HUF_DEC(bits, cb) (R140). -/
def hufDec (cb : Codebook) (bits : List Bool) : List Byte := hufDecFrom cb [] bits

/-! ## Commands -/

/-- The body of HUF_BUILD (R144). -/
def hufBuildBody (s : State) (data : List Byte) : Except CmdError State := do
  let freq := freqOf data
  checkTotal s.cfg freq
  let cb := codebookOf freq
  let text := cbText cb
  check (text.length ≤ s.cfg.maxOut) (.capacity .outBuf)
  .ok ((s.putCodebook cb).putOut text)

/-- HUF_BUILD (R144). -/
def execHufBuild (s : State) : Host.Outcome State Fault Refusal :=
  runCommand (destSet .hufBuild) s.inOperand s (hufBuildBody s)

/-- The body of HUF_ENCODE (R145). -/
def hufEncodeBody (s : State) (data : List Byte) : Except CmdError State := do
  let bits ← hufEnc s.cb data
  check (bits.length ≤ s.cfg.maxBits) (.capacity .bits)
  .ok (s.putBits bits)

/-- HUF_ENCODE (R145). -/
def execHufEncode (s : State) : Host.Outcome State Fault Refusal :=
  runCommand (destSet .hufEncode) s.inOperand s (hufEncodeBody s)

/-- The body of HUF_DECODE (R146). -/
def hufDecodeBody (s : State) (bits : List Bool) : Except CmdError State := do
  let out := hufDec s.cb bits
  check (out.length ≤ s.cfg.maxOut) (.capacity .outBuf)
  .ok (s.putOut out)

/-- HUF_DECODE (R146). -/
def execHufDecode (s : State) : Host.Outcome State Fault Refusal :=
  runCommand (destSet .hufDecode) s.bitsOperand s (hufDecodeBody s)

/-- The body of CB_LOAD (R147). -/
def cbLoadBody (s : State) (text : List Byte) : Except CmdError State := do
  let cb ← cbParse text
  .ok (s.putCodebook cb)

/-- CB_LOAD (R147). -/
def execCbLoad (s : State) : Host.Outcome State Fault Refusal :=
  runCommand (destSet .cbLoad) s.inOperand s (cbLoadBody s)

end Sys2Proof.Machine
end

