-- ==== Sys2Proof/Machine/ContextModel.lean ====
section
/-! DEFINITION. The context-model collaborator at its interface (43_context_interface.md): CTX_FN (R190), and the reference
behaviour the spec transcribes (R192 to R196). It is no part of the block; the block uses only what `ctxFn` returns (R191). -/

namespace Sys2Proof.Machine

/-- The counter of a context; none when T has no entry for it. -/
def CtxTable.counter : CtxTable → List Byte → Option FreqTable
  | [], _ => none
  | (c, f) :: t, ctx => if c = ctx then some f else CtxTable.counter t ctx

/-- Count `nxt` once under `ctx`; an absent counter counts as 0 (R192). -/
def CtxTable.bump : CtxTable → List Byte → Byte → CtxTable
  | [], ctx, nxt => [(ctx, [(nxt, 1)])]
  | (c, f) :: t, ctx, nxt =>
    if c = ctx then (c, FreqTable.bump f nxt) :: t else (c, f) :: CtxTable.bump t ctx nxt

/-- The windows of R192 in increasing position: the k symbols of the context and the symbol after them. -/
def ctxWindows (k : Nat) : List Byte → List (List Byte × Byte)
  | [] => []
  | b :: bs =>
    match (b :: bs).drop k with
    | nxt :: _ => ((b :: bs).take k, nxt) :: ctxWindows k bs
    | [] => []

/-- TRAIN(s, k) (R192). -/
def train (s : List Byte) (k : Nat) : CtxTable :=
  (ctxWindows k s).foldl (fun t w => CtxTable.bump t w.1 w.2) []

/-- PREDICT(T, ctx) at symbol x, as numerator and denominator (R193): uniform over the 256 symbols for an unknown context, else
the symbol's share of the counter. -/
def predict (t : CtxTable) (ctx : List Byte) (x : Byte) : Nat × Nat :=
  match CtxTable.counter t ctx with
  | none => (1, 256)
  | some f => (FreqTable.count f x, FreqTable.total f)

/-- The boost of R194 for a symbol seen c times out of t under its context: ×1.5 above 0.7, ×1.2 above 0.5, truncated; exact
rational arithmetic (R195). -/
def boost (c t f : Nat) : Nat :=
  if 10 * c > 7 * t then 3 * f / 2
  else if 2 * c > t then 6 * f / 5
  else f

/-- Change the count of a symbol where it stands. -/
def FreqTable.update : FreqTable → Byte → (Nat → Nat) → FreqTable
  | [], _, _ => []
  | (x, n) :: t, b, g => if x = b then (x, g n) :: t else (x, n) :: FreqTable.update t b g

/-- One position of ADAPTIVE: its context, if in T, and its symbol, if observed under that context (R194). -/
def adaptStep (t : CtxTable) (f : FreqTable) (w : List Byte × Byte) : FreqTable :=
  match CtxTable.counter t w.1 with
  | none => f
  | some counter =>
    let c := FreqTable.count counter w.2
    if c = 0 then f else FreqTable.update f w.2 (boost c (FreqTable.total counter))

/-- ADAPTIVE(s, T, k) (R194): FREQ(s), then one boost per position i ≥ k in increasing order. -/
def adaptive (s : List Byte) (t : CtxTable) (k : Nat) : FreqTable :=
  (ctxWindows k s).foldl (adaptStep t) (freqOf s)

/-- LE32(n) (00_scope.md R16). -/
def le32Bytes (n : Nat) : List Byte :=
  [BitVec.ofNat 8 n, BitVec.ofNat 8 (n / 2 ^ 8), BitVec.ofNat 8 (n / 2 ^ 16), BitVec.ofNat 8 (n / 2 ^ 24)]

/-- The illustrative serializer of 95_test_vectors.md (COMPRESS.CTX), not normative: one order byte, then for each context
and next symbol in first-seen order the context bytes, the symbol and LE32(count) (log 11). -/
def illustrativeSer (t : CtxTable) (k : Nat) : List Byte :=
  BitVec.ofNat 8 k :: t.flatMap (fun e => e.2.flatMap (fun x => e.1 ++ x.1 :: le32Bytes x.2))

/-- CTX_SER(T, k) (R196). -/
def ctxSer (c : Config) (t : CtxTable) (k : Nat) : List Byte :=
  match c.serializer with
  | .illustrative => illustrativeSer t k
  | .other n => Config.otherSerializer n t k

/-- The entries of a table less those whose symbol an earlier entry has; a frequency table repeats no symbol (00_scope.md R13). -/
def FreqTable.firstPerSymbol (seen : List Byte) : FreqTable → FreqTable
  | [] => []
  | (x, n) :: t =>
    if x ∈ seen then FreqTable.firstPerSymbol seen t
    else (x, n) :: FreqTable.firstPerSymbol (x :: seen) t

/-- CTX_FN(tb) (R190): the frequency table and the serialized model. -/
def ctxFn (c : Config) (tb : List Byte) : FreqTable × List Byte :=
  match c.collaborator with
  | .reference =>
    let t := train tb c.ctxOrder
    (adaptive tb t c.ctxOrder, ctxSer c t c.ctxOrder)
  | .other n =>
    let r := Config.otherCollaborator n tb
    (FreqTable.firstPerSymbol [] r.1, r.2)

end Sys2Proof.Machine
end

