-- ==== Sys2Proof/Machine/WindowMatcher.lean ====
section
/-! DEFINITION. The Window Matcher and the token codec (40_window_matcher.md), LZ_ENCODE and LZ_DECODE. -/

namespace Sys2Proof.Machine

/-- A token (00_scope.md R12). -/
inductive Token where
  | literal (b : Byte)
  /-- `Match(length, distance)`. -/
  | backRef (length distance : Nat)
  deriving DecidableEq, Repr

/-- How many leading bytes two sequences have in common, counted up to a cap. -/
def commonPrefix : Nat → List Byte → List Byte → Nat
  | 0, _, _ => 0
  | _ + 1, [], _ => 0
  | _ + 1, _, [] => 0
  | k + 1, a :: as, b :: bs => if a = b then commonPrefix k as bs + 1 else 0

/-- ML(data, i, d) (R100): how many bytes from i on equal those from i − d on, up to MAX_MATCH and the end of the data. The
compared sequences may overlap. -/
def matchLength (c : Config) (data : List Byte) (i d : Nat) : Nat :=
  commonPrefix c.maxMatch (data.drop (i - d)) (data.drop i)

/-- The search over the distances d, d+1, …, of which k are left: a later candidate wins only when strictly longer (R101). -/
def longestFrom (c : Config) (data : List Byte) (i : Nat) : Nat → Nat → Nat × Nat → Nat × Nat
  | 0, _, best => best
  | k + 1, d, best =>
    let l := matchLength c data i d
    longestFrom c data i k (d + 1) (if l > best.1 then (l, d) else best)

/-- LONGEST(data, i) (R101): (length, distance), or (0, 0). -/
def longest (c : Config) (data : List Byte) (i : Nat) : Nat × Nat :=
  longestFrom c data i (min c.w i) 1 (0, 0)

/-- The tokens from the cursor i on; `fuel` bounds the number of tokens (R102: every token advances the cursor). -/
def lzEncFrom (c : Config) (data : List Byte) : Nat → Nat → List Token
  | 0, _ => []
  | fuel + 1, i =>
    match data[i]? with
    | none => []
    | some b =>
      let m := longest c data i
      if m.1 ≥ c.minMatch then .backRef m.1 m.2 :: lzEncFrom c data fuel (i + m.1)
      else .literal b :: lzEncFrom c data fuel (i + 1)

/-- LZ_ENC(data) (R102): greedy, no lookahead. -/
def lzEnc (c : Config) (data : List Byte) : List Token := lzEncFrom c data data.length 0

/-- The bytes of one token (30_encoding.md R80). -/
def serToken : Token → List Byte
  | .literal b => [0x00#8, b]
  | .backRef l d => [0x01#8, BitVec.ofNat 8 l, BitVec.ofNat 8 d]

/-- SER(toks) (R104). -/
def ser (toks : List Token) : List Byte := toks.flatMap serToken

/-- PARSE1 (R105) on the bytes from the tag on: the token and the bytes after it, or none for a truncated token or an
unknown tag. -/
def parseToken : List Byte → Option (Token × List Byte)
  | [] => none
  | tag :: rest =>
    if tag = 0x00#8 then
      match rest with
      | b :: rest => some (.literal b, rest)
      | [] => none
    else if tag = 0x01#8 then
      match rest with
      | l :: d :: rest => some (.backRef l.toNat d.toNat, rest)
      | _ => none
    else none

/-- The bytes a token occupies (30_encoding.md R80). -/
def Token.size : Token → Nat
  | .literal _ => 2
  | .backRef _ _ => 3

/-- R107: a match may be replayed against an output of length `len`. -/
def Token.valid (c : Config) (len : Nat) : Token → Bool
  | .literal _ => true
  | .backRef l d => (c.minMatch ≤ l && l ≤ c.maxMatch) && (1 ≤ d && d ≤ c.w) && d ≤ len

/-- Copy k bytes, one at a time, each from d bytes behind the current end of the output (R106). -/
def copyBack (d : Nat) : Nat → List Byte → List Byte
  | 0, out => out
  | k + 1, out => copyBack d k (out ++ [out.getD (out.length - d) 0#8])

/-- REPLAY(out, tok) (R106). -/
def replay (out : List Byte) : Token → List Byte
  | .literal b => out ++ [b]
  | .backRef l d => copyBack d l out

/-- LZ_DEC from offset p on (R108): parse a token, check it, replay it; the first failure in stream order is raised, with the
offset of its tag byte. `fuel` bounds the number of tokens. -/
def lzDecFrom (c : Config) : Nat → Nat → List Byte → List Byte → Nat → Except CmdError (List Byte × Nat)
  | 0, _, _, out, ntok => .ok (out, ntok)
  | fuel + 1, p, tb, out, ntok =>
    if tb.isEmpty then .ok (out, ntok)
    else match parseToken tb with
      | none => .error (.corruptStream p)
      | some (tok, rest) =>
        if tok.valid c out.length then lzDecFrom c fuel (p + tok.size) rest (replay out tok) (ntok + 1)
        else .error (.corruptStream p)

/-- LZ_DEC(tb) (R108): the decoded bytes and the number of tokens. -/
def lzDec (c : Config) (tb : List Byte) : Except CmdError (List Byte × Nat) := lzDecFrom c tb.length 0 tb [] 0

/-! ## Commands -/

/-- The body of LZ_ENCODE (R110). -/
def lzEncodeBody (s : State) (data : List Byte) : Except CmdError State := do
  let toks := lzEnc s.cfg data
  let tb := ser toks
  check (tb.length ≤ s.cfg.maxOut) (.capacity .outBuf)
  .ok ((s.putOut tb).putTokCount toks.length)

/-- LZ_ENCODE (R110). -/
def execLzEncode (s : State) : Host.Outcome State Fault Refusal :=
  runCommand (destSet .lzEncode) s.inOperand s (lzEncodeBody s)

/-- The body of LZ_DECODE (R111). -/
def lzDecodeBody (s : State) (tb : List Byte) : Except CmdError State := do
  let r ← lzDec s.cfg tb
  check (r.1.length ≤ s.cfg.maxOut) (.capacity .outBuf)
  .ok ((s.putOut r.1).putTokCount r.2)

/-- LZ_DECODE (R111). -/
def execLzDecode (s : State) : Host.Outcome State Fault Refusal :=
  runCommand (destSet .lzDecode) s.inOperand s (lzDecodeBody s)

end Sys2Proof.Machine
end

