-- ==== Sys2Proof/Machine/Container.lean ====
section
/-! DEFINITION. The Container Codec (44_container_codec.md, 30_encoding.md R83, R84), COMPRESS and DECOMPRESS. -/

namespace Sys2Proof.Machine

/-! ## Assembly -/

/-- BE32(n) (00_scope.md R16). -/
def be32Bytes (n : Nat) : List Byte :=
  [BitVec.ofNat 8 (n / 2 ^ 24), BitVec.ofNat 8 (n / 2 ^ 16), BitVec.ofNat 8 (n / 2 ^ 8), BitVec.ofNat 8 n]

/-- MARKER, ASCII "CTXMODEL" (30_encoding.md R84). -/
def marker : List Byte := [0x43#8, 0x54#8, 0x58#8, 0x4D#8, 0x4F#8, 0x44#8, 0x45#8, 0x4C#8]

/-- ASSEMBLE(text, pad, packed, use_ctx, model) (R210). -/
def assemble (text : List Byte) (pad : Nat) (packed : List Byte) (useCtx : Bool) (model : List Byte) : List Byte :=
  be32Bytes text.length ++ text ++ [BitVec.ofNat 8 pad] ++ packed ++
    (if useCtx then marker ++ le32Bytes model.length ++ model else [])

/-! ## Parsing -/

/-- be32 of the first four bytes (00_scope.md R16). -/
def be32 (s : List Byte) : Nat :=
  (s.getD 0 0#8).toNat * 2 ^ 24 + (s.getD 1 0#8).toNat * 2 ^ 16 + (s.getD 2 0#8).toNat * 2 ^ 8 + (s.getD 3 0#8).toNat

/-- le32 of the first four bytes (00_scope.md R16). -/
def le32 (s : List Byte) : Nat :=
  (s.getD 0 0#8).toNat + (s.getD 1 0#8).toNat * 2 ^ 8 + (s.getD 2 0#8).toNat * 2 ^ 16 + (s.getD 3 0#8).toNat * 2 ^ 24

/-- What the header gives (R212): the pad, the codebook, and the bytes from the payload's start S on. -/
structure Header where
  pad : Nat
  cb : Codebook
  payload : List Byte
  deriving DecidableEq, Repr

/-- The header checks 1 to 4, in order (R212). -/
def parseHeader (b : List Byte) : Except CmdError Header := do
  check (4 ≤ b.length) (.corruptContainer .shortBlob)
  let n := be32 b
  check (4 + n + 1 ≤ b.length) (.corruptContainer .textTooLong)
  let pad := (b.getD (4 + n) 0#8).toNat
  check (pad ≤ 7) (.corruptContainer .padRange)
  let cb ← cbParse ((b.drop 4).take n)
  .ok ⟨pad, cb, b.drop (4 + n + 1)⟩

/-- The offset of the last MARKER in a byte string, if there is one. -/
def lastMarker : List Byte → Option Nat
  | [] => none
  | b :: bs =>
    match lastMarker bs with
    | some p => some (p + 1)
    | none => if marker.isPrefixOf (b :: bs) then some 0 else none

/-- FIND_TRAILER (R213) on the bytes from S on: the packed bytes, and the tail after the marker when one was found. -/
def findTrailer (payload : List Byte) : List Byte × Option (List Byte) :=
  match lastMarker payload with
  | none => (payload, none)
  | some p => (payload.take p, some (payload.drop (p + 8)))

/-- Trailer validation (R214): the model bytes of a valid trailer. It never raises an error. -/
def trailerModel (c : Config) (tail : List Byte) : Option (List Byte) :=
  if 4 ≤ tail.length then
    let m := le32 tail
    if m ≤ tail.length - 4 ∧ m ≤ c.maxModel then some ((tail.drop 4).take m) else none
  else none

/-! ## Pipelines -/

/-- What a compression gives (R216). -/
structure Compressed where
  blob : List Byte
  toks : List Token
  cb : Codebook
  bits : List Bool
  pad : Nat
  model : List Byte
  deriving DecidableEq, Repr

/-- COMPRESS_FN(data, use_ctx) (R216). -/
def compressFn (c : Config) (data : List Byte) (useCtx : Bool) : Except CmdError Compressed := do
  let toks := lzEnc c data
  let tb := ser toks
  check (tb.length ≤ c.maxTok) (.capacity .tok)
  let fm := if useCtx then ctxFn c tb else (freqOf tb, [])
  checkTotal c fm.1
  let cb := codebookOf fm.1
  let bits ← hufEnc cb tb
  check (bits.length ≤ c.maxBits) (.capacity .bits)
  let p := pack bits
  let text := cbText cb
  check (!useCtx || fm.2.length ≤ c.maxModel) (.capacity .model)
  let blob := assemble text p.2 p.1 useCtx fm.2
  check (blob.length ≤ c.maxOut) (.capacity .outBuf)
  .ok ⟨blob, toks, cb, bits, p.2, fm.2⟩

/-- What a decompression gives (R217); `model` is the model bytes of a valid trailer. -/
structure Decompressed where
  out : List Byte
  ntok : Nat
  cb : Codebook
  bits : List Bool
  pad : Nat
  present : Bool
  model : Option (List Byte)
  deriving DecidableEq, Repr

/-- DECOMPRESS_FN(B) (R217). The check of R215 is the second check of UNPACK; its first cannot fail after header check 3. -/
def decompressFn (c : Config) (b : List Byte) : Except CmdError Decompressed := do
  let h ← parseHeader b
  let f := findTrailer h.payload
  let model := f.2.bind (trailerModel c)
  let bits ← unpack f.1 h.pad
  check (bits.length ≤ c.maxBits) (.capacity .bits)
  let tb := hufDec h.cb bits
  check (tb.length ≤ c.maxTok) (.capacity .tok)
  let r ← lzDec c tb
  check (r.1.length ≤ c.maxOut) (.capacity .outBuf)
  .ok ⟨r.1, r.2, h.cb, bits, h.pad, f.2.isSome, model⟩

/-! ## Commands -/

/-- The outputs of a successful COMPRESS (R218). -/
def State.putCompressed (s : State) (r : Compressed) : State :=
  (((((s.putOut r.blob).putTokCount r.toks.length).putCodebook r.cb).putBits r.bits).putPad r.pad).putModel r.model

/-- The body of COMPRESS (R218). -/
def compressBody (useCtx : Bool) (s : State) (data : List Byte) : Except CmdError State := do
  let r ← compressFn s.cfg data useCtx
  .ok (s.putCompressed r)

/-- COMPRESS, with USE_CTX = CUR_CMD[8] as its operand (R218). -/
def execCompress (useCtx : Bool) (s : State) : Host.Outcome State Fault Refusal :=
  runCommand (destSet (.compress useCtx)) s.inOperand s (compressBody useCtx s)

/-- The outputs of a successful DECOMPRESS (R219): with no valid trailer MODEL_LEN is 0 and MODEL holds no value. -/
def State.putDecompressed (s : State) (r : Decompressed) : State :=
  ((((((s.putOut r.out).putTokCount r.ntok).putCodebook r.cb).putBits r.bits).putPad r.pad).putModel
    (r.model.getD [])).setTrailerFlags r.present r.model.isSome

/-- The body of DECOMPRESS (R219). -/
def decompressBody (s : State) (b : List Byte) : Except CmdError State := do
  let r ← decompressFn s.cfg b
  .ok (s.putDecompressed r)

/-- DECOMPRESS (R219). -/
def execDecompress (s : State) : Host.Outcome State Fault Refusal :=
  runCommand (destSet .decompress) s.inOperand s (decompressBody s)

end Sys2Proof.Machine
end

