-- ==== Sys2Proof/Machine/Dispatch.lean ====
section
/-! DEFINITION. The dispatch: one arm per command. -/

namespace Sys2Proof.Machine

def exec (i : Instr) (s : State) : Host.Outcome State Fault Refusal :=
  match i with
  | .compress useCtx => Sys2Proof.Machine.execCompress useCtx s
  | .decompress => Sys2Proof.Machine.execDecompress s
  | .lzEncode => Sys2Proof.Machine.execLzEncode s
  | .lzDecode => Sys2Proof.Machine.execLzDecode s
  | .hufBuild => Sys2Proof.Machine.execHufBuild s
  | .hufEncode => Sys2Proof.Machine.execHufEncode s
  | .hufDecode => Sys2Proof.Machine.execHufDecode s
  | .cbLoad => Sys2Proof.Machine.execCbLoad s
  | .bitPack => Sys2Proof.Machine.execBitPack s
  | .bitUnpack => Sys2Proof.Machine.execBitUnpack s

end Sys2Proof.Machine
end

