-- ==== Sys2Proof/Machine/HostPort.lean ====
section
/-! DEFINITION. The host port (20_memory.md R50 to R56): what an access names, reads and writes, while IDLE and while BUSY; and
one step of the host or of the platform (30_encoding.md R76, R77; 70_reset_and_hazards.md R270, R271). -/

namespace Sys2Proof.Machine

/-! ## What an access names -/

/-- The register map (10_state.md R21). -/
def Reg.offset : Reg → Nat
  | .id => 0x00
  | .cmd => 0x04
  | .status => 0x08
  | .errCode => 0x0C
  | .errInfo => 0x10
  | .inLen => 0x14
  | .outLen => 0x18
  | .bitsLen => 0x1C
  | .pad => 0x20
  | .modelLen => 0x24
  | .cbCount => 0x28
  | .tokCount => 0x2C

/-- The register at an offset; none for an offset that is no multiple of 4 or is 0x30 or above (20_memory.md R52). -/
def regAt (addr : Nat) : Option Reg :=
  if addr = 0x00 then some .id
  else if addr = 0x04 then some .cmd
  else if addr = 0x08 then some .status
  else if addr = 0x0C then some .errCode
  else if addr = 0x10 then some .errInfo
  else if addr = 0x14 then some .inLen
  else if addr = 0x18 then some .outLen
  else if addr = 0x1C then some .bitsLen
  else if addr = 0x20 then some .pad
  else if addr = 0x24 then some .modelLen
  else if addr = 0x28 then some .cbCount
  else if addr = 0x2C then some .tokCount
  else none

/-- The size of a space in bytes (20_memory.md R51). -/
def spaceSize (c : Config) : Space → Nat
  | .reg => 0x40
  | .inBuf => c.maxIn
  | .outBuf => c.maxOut
  | .bits => c.maxBits
  | .model => c.maxModel

/-- What an access names. -/
inductive Target where
  | register (r : Reg)
  | cell (space : Space) (addr : Nat)
  deriving DecidableEq, Repr

/-- A REG access has n = 4 and names a register (20_memory.md R52); a buffer access has n = 1 and an address below the
size of the space (R53). Anything else is a bus error (none). -/
def portTarget (c : Config) (sp : Space) (addr n : Nat) : Option Target :=
  match sp with
  | .reg =>
    if n = 4 then
      match regAt addr with
      | some r => some (.register r)
      | none => none
    else none
  | sp => if n = 1 ∧ addr < spaceSize c sp then some (.cell sp addr) else none

/-! ## Reads -/

/-- The identification constant, ASCII "LZ77" (10_state.md R22). -/
def idValue : Word := 0x4C5A3737#32

/-- The 32-bit value of a register (10_state.md R21 to R33); bits that hold nothing read 0, and CMD reads 0. -/
def State.regValue (s : State) : Reg → Word
  | .id => idValue
  | .cmd => 0#32
  | .status => s.statusWord
  | .errCode => s.errCode.setWidth 32
  | .errInfo => s.errInfo
  | .inLen => s.inLen
  | .outLen => s.outLen
  | .bitsLen => s.bitsLen
  | .pad => s.pad.setWidth 32
  | .modelLen => s.modelLen
  | .cbCount => s.cbCount.setWidth 32
  | .tokCount => s.tokCount

/-- The free value of a host read that returns UNSPEC (log 5, log 19). -/
def State.unspec (s : State) (sp : Space) (addr : Nat) : Word :=
  Config.unspecWord sp.number addr s.epoch

/-- A register read. While BUSY (20_memory.md R56): ID and STATUS read their current value, CMD, ERRCODE and ERRINFO read 0,
every other register returns UNSPEC. -/
def State.readRegister (s : State) (r : Reg) : HostReply :=
  if s.busy then
    match r with
    | .id => .word (s.regValue .id)
    | .status => .word (s.regValue .status)
    | .cmd => .word 0#32
    | .errCode => .word 0#32
    | .errInfo => .word 0#32
    | r => .unspecWord (s.unspec .reg r.offset)
  else .word (s.regValue r)

/-- A bit as a BITS read returns it: 0x00 or 0x01 (20_memory.md R55). -/
def bitByte (b : Bool) : Byte := if b then 1#8 else 0#8

/-- The cell is at or beyond the length register of its space: OUT, BITS and MODEL have one (10_state.md R45). -/
def State.beyondLength (s : State) (sp : Space) (addr : Nat) : Bool :=
  match sp with
  | .reg => false
  | .inBuf => false
  | .outBuf => s.outLen.toNat ≤ addr
  | .bits => s.bitsLen.toNat ≤ addr
  | .model => s.modelLen.toNat ≤ addr

/-- The value of a buffer cell as a byte; none for a cell that holds no value (10_state.md R45). -/
def State.cellValue (s : State) (sp : Space) (addr : Nat) : Option Byte :=
  match sp with
  | .reg => none
  | .inBuf => Memory.read s.inBuf addr
  | .outBuf => Memory.read s.outBuf addr
  | .bits => (Memory.read s.bitsBuf addr).map bitByte
  | .model => Memory.read s.modelBuf addr

/-- A buffer read: UNSPEC while BUSY (20_memory.md R56), and UNSPEC at or beyond the length register (10_state.md R45, 93 row 2;
log 5, log 6). Any other cell answers its value; none says that it holds no value, and the read faults: DEDUCED from 60_exceptions.md
R242, 00_scope.md R17 and 92 D20 (log 25), for a read that R45's list and 93 rows 2 and 3 do not name. 93 row 2 does name one of them,
BITS after an error cleared it, here below a BITS_LEN the host has raised since, and gives it any value; it faults too: DESIGN CHOICE
(log 26). -/
def State.readCell (s : State) (sp : Space) (addr : Nat) : Option HostReply :=
  if s.busy || s.beyondLength sp addr then some (.unspecByte ((s.unspec sp addr).setWidth 8))
  else (s.cellValue sp addr).map HostReply.byte

/-- The answer to a read of a target; none where the cell holds no value and the read faults. -/
def State.readTarget (s : State) : Target → Option HostReply
  | .register r => some (s.readRegister r)
  | .cell sp addr => s.readCell sp addr

/-- After a read: the answer on the port. Reads made while IDLE are idempotent (20_memory.md R59), so only a read made
while BUSY moves the free values on (log 19). -/
def State.answerRead (s : State) (r : HostReply) : State :=
  { s with reply := r, epoch := if s.busy then s.epoch + 1 else s.epoch }

/-! ## Writes -/

/-- A register write while IDLE (10_state.md R21 to R33): CMD starts a command (R36), IN_LEN, BITS_LEN and PAD store, and a
write to a read-only register is ignored (20_memory.md R54). -/
def State.writeRegister (s : State) (v : Word) : Reg → State
  | .cmd => s.startCommand v
  | .inLen => { s with inLen := v }
  | .bitsLen => { s with bitsLen := v }
  | .pad => { s with pad := v.setWidth 8 }
  | .id => s
  | .status => s
  | .errCode => s
  | .errInfo => s
  | .outLen => s
  | .modelLen => s
  | .cbCount => s
  | .tokCount => s

/-- A buffer write while IDLE: IN takes v[7:0], BITS takes v[0] (20_memory.md R55), OUT and MODEL ignore it (R54). -/
def State.writeCell (s : State) (v : Word) (addr : Nat) : Space → State
  | .inBuf => { s with inBuf := Memory.write s.inBuf addr (v.setWidth 8) }
  | .bits => { s with bitsBuf := Memory.write s.bitsBuf addr (v.getLsbD 0) }
  | .outBuf => s
  | .model => s
  | .reg => s

/-- A write to a target: ignored while BUSY (20_memory.md R56). -/
def State.writeTarget (s : State) (v : Word) (t : Target) : State :=
  if s.busy then s
  else match t with
    | .register r => s.writeRegister v r
    | .cell sp addr => s.writeCell v addr sp

/-- After a write: the answer on the port, and the free values move on (log 19). -/
def State.answerWrite (s : State) : State := { s with reply := .ack, epoch := s.epoch + 1 }

/-! ## One step of the host or of the platform -/

/-- One host access (20_memory.md R50). An access that names nothing is a bus error, which changes no state (R52, R53, R242):
a fault of the model (log 13). A read while IDLE of a cell that holds no value is one too (R242; log 25, log 26). -/
def hostAccess (s : State) : Access → Host.Outcome State Fault Refusal
  | .read sp addr n =>
    match portTarget s.cfg sp addr n with
    | some t =>
      match s.readTarget t with
      | some r => .next (s.answerRead r)
      | none => .fault (.unwrittenCell sp addr)
    | none => .fault (.busError sp addr n)
  | .write sp addr n v =>
    match portTarget s.cfg sp addr n with
    | some t => .next (s.writeTarget v t).answerWrite
    | none => .fault (.busError sp addr n)

/-- WAIT reads STATUS and stays pending while BUSY reads 1 (30_encoding.md R76). -/
def hostWait (s : State) : State :=
  let t := s.answerRead (s.readRegister .status)
  if s.busy then { t with host := .wait :: s.host } else t

/-- The number a register read answered. -/
def HostReply.number : HostReply → Nat
  | .word v => v.toNat
  | .unspecWord v => v.toNat
  | _ => 0

/-- DUMPOUT reads OUT_LEN and puts one RB OUT, j for each j below the answer in its place (30_encoding.md R77). -/
def hostDumpOut (s : State) : State :=
  let t := s.answerRead (s.readRegister .outLen)
  { t with host := (List.range t.reply.number).map (fun j => .access (.read .outBuf j 1)) ++ s.host }

/-- An access in the step of a reset is wholly before or wholly after it (70_reset_and_hazards.md R271): a free value
says which (log 4). -/
def hostResetWith (s : State) (a : Access) : Host.Outcome State Fault Refusal :=
  if Config.resetFirst s.epoch then hostAccess s.afterReset a
  else match hostAccess s a with
    | .next t => .next { t.afterReset with reply := t.reply }
    | .fault f => .fault f
    | .refused r => .refused r

/-- The host takes its next operation: it is no longer pending, and the engine's step comes one host step nearer. -/
def State.takeHostOp (s : State) (rest : List HostOp) : State :=
  { s with host := rest, engineDelay := s.engineDelay - 1 }

/-- One step of the host or of the platform: the operation `op`, with `rest` still to come. -/
def hostStep (s : State) (op : HostOp) (rest : List HostOp) : Host.Outcome State Fault Refusal :=
  let t := s.takeHostOp rest
  match op with
  | .access a => hostAccess t a
  | .wait => .next (hostWait t)
  | .dumpOut => .next (hostDumpOut t)
  | .reset => .next t.afterReset
  | .resetWith a => hostResetWith t a

/-- The engine moves now: a command runs, and no host step comes before the engine's (70_reset_and_hazards.md R285). A host
with nothing pending takes no step, so the engine's step is never postponed for ever. -/
def State.engineTurn (s : State) : Bool := s.busy && (s.host.isEmpty || s.engineDelay == 0)

/-! ## The host script (30_encoding.md R76, R77) -/

/-- WR reg, value. -/
def scriptWR (r : Reg) (v : Word) : HostOp := .access (.write .reg r.offset 4 v)

/-- RD reg. -/
def scriptRD (r : Reg) : HostOp := .access (.read .reg r.offset 4)

/-- WB space, addr, byte. -/
def scriptWB (sp : Space) (addr : Nat) (b : Byte) : HostOp := .access (.write sp addr 1 (b.setWidth 32))

/-- RB space, addr. -/
def scriptRB (sp : Space) (addr : Nat) : HostOp := .access (.read sp addr 1)

/-- LOADIN: every byte, then IN_LEN. -/
def scriptLOADIN (bytes : List Byte) : List HostOp :=
  bytes.zipIdx.map (fun p => scriptWB .inBuf p.2 p.1) ++ [scriptWR .inLen (BitVec.ofNat 32 bytes.length)]

/-- LOADBITS: every bit, then BITS_LEN. -/
def scriptLOADBITS (bits : List Bool) : List HostOp :=
  bits.zipIdx.map (fun p => scriptWB .bits p.2 (bitByte p.1)) ++ [scriptWR .bitsLen (BitVec.ofNat 32 bits.length)]

/-- RUN: WR CMD with the command's word, then WAIT; COMPRESS.CTX is COMPRESS with USE_CTX = 1. -/
def scriptRUN (i : Instr) : List HostOp := [scriptWR .cmd (encode i), .wait]

end Sys2Proof.Machine
end

