-- ==== Sys2Proof/Machine/Step.lean ====
section
/-! DEFINITION. One step of the machine: the engine's, the host's or the platform's (70_reset_and_hazards.md R285). -/

namespace Sys2Proof.Machine

/-- The engine's step: the latched command, whole (20_memory.md R59); an illegal word ends with IllegalCommand
(30_encoding.md R72). -/
def engineStep (s : State) : Host.Outcome State Fault Refusal :=
  match s.fetchCommand with
  | .ok i => exec i s
  | .error _ => .next s.raiseIllegal

/-- One step. With a command running and the engine's turn come, the engine moves; else the host takes its next operation; with
nothing pending and IDLE, the block holds its state (60_exceptions.md R256). -/
def step (s : State) : Host.Outcome State Fault Refusal :=
  if s.engineTurn then engineStep s
  else match s.host with
    | [] => .next s
    | op :: rest => hostStep s op rest

/-- `s` with the command of the low `nbits` bits of w started, as a host write to CMD starts it (10_state.md R36), and the
engine's turn next: the command comes from the host's CMD write itself (20_memory.md R64; log 14). -/
def State.withFetchWord (s : State) (nbits w : Nat) : State :=
  { s.startCommand (BitVec.ofNat 32 (w % 2 ^ nbits)) with engineDelay := 0, delays := s.delays }

end Sys2Proof.Machine
end

