-- ==== Sys2Proof/Safety.lean ====
section
/-! DEFINITION. The terms the claims use: what a command's input is, how a command ends, what it leaves unchanged, and the
invariants a step keeps. -/

namespace Sys2Proof.Machine

/-! ## Buffers and inputs -/

/-- The buffer holds exactly the list, from cell 0: reading a cell gives its element, and no value beyond the end. -/
def Memory.HoldsExactly {α : Type} (m : List (Nat × α)) (vs : List α) : Prop :=
  ∀ a, Memory.read m a = vs[a]?

/-- Reading any cell of the two buffers gives the same. -/
def Memory.SameCells {α : Type} (m m' : List (Nat × α)) : Prop :=
  ∀ a, Memory.read m' a = Memory.read m a

/-- IN[0 : IN_LEN] is `data`, whatever the cells beyond hold. -/
def State.InputIs (s : State) (data : List Byte) : Prop :=
  s.inLen.toNat = data.length ∧ ∀ j, j < data.length → Memory.read s.inBuf j = data[j]?

/-- BITS[0 : BITS_LEN] is `bits`, whatever the cells beyond hold. -/
def State.BitsInputIs (s : State) (bits : List Bool) : Prop :=
  s.bitsLen.toNat = bits.length ∧ ∀ j, j < bits.length → Memory.read s.bitsBuf j = bits[j]?

/-! ## How a command ends -/

/-- Ended without error (60_exceptions.md R243): STATUS has DONE alone of BUSY, DONE, ERR; ERRCODE and ERRINFO are 0; TOK holds no
value (10_state.md R42). -/
def State.EndedDone (t : State) : Prop :=
  t.phase = .idle ∧ t.done = true ∧ t.err = false ∧ t.errCode = 0#8 ∧ t.errInfo = 0#32 ∧ t.tok = []

/-- Ended with an error (60_exceptions.md R243): STATUS has DONE and ERR, the trailer flags are 0, and the record is the given one. -/
def State.EndedError (t : State) (code : BitVec 8) (info : Word) : Prop :=
  t.phase = .idle ∧ t.done = true ∧ t.err = true ∧ t.ctxPresent = false ∧ t.ctxValid = false ∧
    t.errCode = code ∧ t.errInfo = info ∧ t.tok = []

/-- Every item outside `ds` is as before (60_exceptions.md R244), buffers read cell by cell. STATUS's DONE, ERR and BUSY,
ERRCODE, ERRINFO and TOK are `EndedDone`'s and `EndedError`'s; the trailer flags are said apart. -/
def State.KeepsAllBut (ds : List Dest) (s t : State) : Prop :=
  t.cfg = s.cfg ∧ t.curCmd = s.curCmd ∧ t.inLen = s.inLen ∧ Memory.SameCells s.inBuf t.inBuf ∧
  (.out ∉ ds → Memory.SameCells s.outBuf t.outBuf) ∧
  (.outLen ∉ ds → t.outLen = s.outLen) ∧
  (.tokCount ∉ ds → t.tokCount = s.tokCount) ∧
  (.cb ∉ ds → t.cb = s.cb) ∧
  (.cbCount ∉ ds → t.cbCount = s.cbCount) ∧
  (.bits ∉ ds → Memory.SameCells s.bitsBuf t.bitsBuf) ∧
  (.bitsLen ∉ ds → t.bitsLen = s.bitsLen) ∧
  (.pad ∉ ds → t.pad = s.pad) ∧
  (.model ∉ ds → Memory.SameCells s.modelBuf t.modelBuf) ∧
  (.modelLen ∉ ds → t.modelLen = s.modelLen) ∧
  t.host = s.host ∧ t.delays = s.delays ∧ t.reply = s.reply

/-- The trailer flags are as before. -/
def State.KeepsTrailerFlags (s t : State) : Prop := t.ctxPresent = s.ctxPresent ∧ t.ctxValid = s.ctxValid

/-- Every item of `ds` is cleared (60_exceptions.md R244). -/
def State.Cleared (ds : List Dest) (t : State) : Prop :=
  (.out ∈ ds → ∀ a, Memory.read t.outBuf a = none) ∧
  (.outLen ∈ ds → t.outLen = 0#32) ∧
  (.tokCount ∈ ds → t.tokCount = 0#32) ∧
  (.cb ∈ ds → t.cb = []) ∧
  (.cbCount ∈ ds → t.cbCount = 0#9) ∧
  (.bits ∈ ds → ∀ a, Memory.read t.bitsBuf a = none) ∧
  (.bitsLen ∈ ds → t.bitsLen = 0#32) ∧
  (.pad ∈ ds → t.pad = 0#8) ∧
  (.model ∈ ds → ∀ a, Memory.read t.modelBuf a = none) ∧
  (.modelLen ∈ ds → t.modelLen = 0#32)

/-- The block's state is the same: registers, flags, phase, latched command, buffers, codebook and parameters; what is pending on
the port and its last answer may differ. -/
def State.SameBlock (s t : State) : Prop :=
  t.cfg = s.cfg ∧ t.phase = s.phase ∧ t.curCmd = s.curCmd ∧ t.done = s.done ∧ t.err = s.err ∧
  t.ctxPresent = s.ctxPresent ∧ t.ctxValid = s.ctxValid ∧ t.errCode = s.errCode ∧ t.errInfo = s.errInfo ∧
  t.inLen = s.inLen ∧ t.outLen = s.outLen ∧ t.bitsLen = s.bitsLen ∧ t.pad = s.pad ∧ t.modelLen = s.modelLen ∧
  t.cbCount = s.cbCount ∧ t.tokCount = s.tokCount ∧ t.inBuf = s.inBuf ∧ t.outBuf = s.outBuf ∧
  t.bitsBuf = s.bitsBuf ∧ t.modelBuf = s.modelBuf ∧ t.cb = s.cb ∧ t.tok = s.tok

/-- Every item of the block with a reset value has it (10_state.md R44); CUR_CMD is UNSPEC there and is not said. -/
def State.BlockIsReset (t : State) : Prop :=
  t.regValue .id = 0x4C5A3737#32 ∧ t.statusWord = 0#32 ∧ t.phase = .idle ∧ t.errCode = 0#8 ∧ t.errInfo = 0#32 ∧
  t.inLen = 0#32 ∧ t.outLen = 0#32 ∧ t.bitsLen = 0#32 ∧ t.pad = 0#8 ∧ t.modelLen = 0#32 ∧ t.cbCount = 0#9 ∧
  t.tokCount = 0#32 ∧ t.cb = [] ∧
  ∀ a, Memory.read t.inBuf a = none ∧ Memory.read t.outBuf a = none ∧ Memory.read t.bitsBuf a = none ∧
    Memory.read t.modelBuf a = none ∧ Memory.read t.tok a = none

/-! ## Codebooks -/

/-- A codebook (00_scope.md R14): no symbol twice, no code twice, every code 1 to 255 bits. -/
def Codebook.Valid (cb : Codebook) : Prop :=
  (cb.map Prod.fst).Nodup ∧ (cb.map Prod.snd).Nodup ∧ ∀ e ∈ cb, 1 ≤ e.2.length ∧ e.2.length ≤ 255

/-- No code is a prefix of the code of another entry (41_prefix_coder.md R142). -/
def Codebook.PrefixFree (cb : Codebook) : Prop := cb.Pairwise (fun e f => ¬ e.2 <+: f.2 ∧ ¬ f.2 <+: e.2)

/-- The piece of a codebook text spells the entry: one to three digits whose value is the symbol, ':', and the code's 1 to 255 bits as
'0' and '1' characters (30_encoding.md R82). -/
def SpellsEntry (piece : List Byte) (e : Byte × Code) : Prop :=
  ∃ digits : List Byte, piece = digits ++ 0x3A#8 :: e.2.map (fun b => if b then 0x31#8 else 0x30#8) ∧
    1 ≤ digits.length ∧ digits.length ≤ 3 ∧ (∀ b ∈ digits, 0x30 ≤ b.toNat ∧ b.toNat ≤ 0x39) ∧
    digits.foldl (fun n b => 10 * n + (b.toNat - 0x30)) 0 = e.1.toNat ∧ 1 ≤ e.2.length ∧ e.2.length ≤ 255

/-! ## Invariants -/

/-- STATUS, ERRCODE and ERRINFO agree (10_state.md R24 to R26): the legal combinations of BUSY, DONE and ERR are 000, 001, 010 and
110; CTX_VALID implies CTX_PRESENT; BUSY implies no trailer flag and no error record; there is an error code exactly with ERR, and it
is none of the reserved ones. -/
def State.StatusInv (s : State) : Prop :=
  (s.phase = .busy → s.done = false ∧ s.err = false ∧ s.ctxPresent = false ∧ s.ctxValid = false) ∧
  (s.err = true → s.done = true) ∧
  (s.ctxValid = true → s.ctxPresent = true) ∧
  (s.err = true ↔ s.errCode ≠ 0#8) ∧
  (s.err = false → s.errInfo = 0#32) ∧
  s.errCode.toNat ≤ 5

/-- The buffers: canonical, inside their sizes; OUT and MODEL hold values exactly below their length registers, which do not exceed
the capacities (10_state.md R28, R31, R38, R40); TOK holds nothing between steps (R42). The parameters are legal. -/
def State.BufferInv (s : State) : Prop :=
  s.cfg.legal = true ∧
  Memory.wf s.inBuf = true ∧ Memory.wf s.outBuf = true ∧ Memory.wf s.bitsBuf = true ∧ Memory.wf s.modelBuf = true ∧
  Memory.within s.inBuf s.cfg.maxIn = true ∧ Memory.within s.bitsBuf s.cfg.maxBits = true ∧
  (∀ a, (Memory.read s.outBuf a).isSome = true ↔ a < s.outLen.toNat) ∧ s.outLen.toNat ≤ s.cfg.maxOut ∧
  (∀ a, (Memory.read s.modelBuf a).isSome = true ↔ a < s.modelLen.toNat) ∧ s.modelLen.toNat ≤ s.cfg.maxModel ∧
  s.tok = []

/-- The codebook table is a codebook, and CB_COUNT counts its entries (00_scope.md R14, 10_state.md R32, R41). -/
def State.CodebookInv (s : State) : Prop := Codebook.Valid s.cb ∧ s.cbCount.toNat = s.cb.length

/-! ## Terms for the functions of the stages -/

/-- How many data bytes a token stands for (40_window_matcher.md R103). -/
def Token.span : Token → Nat
  | .literal _ => 1
  | .backRef l _ => l

/-- How many data bytes a token list stands for. -/
def spanOf (toks : List Token) : Nat := (toks.map Token.span).sum

/-- The token is a literal. -/
def Token.isLiteral : Token → Bool
  | .literal _ => true
  | .backRef _ _ => false

/-- The leaves of a tree, left first. -/
def Tree.leaves : Tree → FreqTable
  | .leaf s w => [(s, w)]
  | .node _ l r => l.leaves ++ r.leaves

/-- Every internal node weighs what its children weigh together (41_prefix_coder.md R132). -/
def Tree.WeightsAdd : Tree → Prop
  | .leaf _ _ => True
  | .node w l r => w = l.weight + r.weight ∧ l.WeightsAdd ∧ r.WeightsAdd

/-- The symbol at the end of a path, 0 = left and 1 = right, if the path ends at a leaf (00_scope.md R15). -/
def Tree.follow : Tree → Code → Option Byte
  | .leaf s _, [] => some s
  | .leaf _ _, _ :: _ => none
  | .node _ _ _, [] => none
  | .node _ l r, b :: c => if b then r.follow c else l.follow c

/-- How often `x` was counted under `ctx` (43_context_interface.md R192). -/
def CtxTable.observed (t : CtxTable) (ctx : List Byte) (x : Byte) : Nat :=
  match CtxTable.counter t ctx with
  | none => 0
  | some f => FreqTable.count f x

/-- The word is legal, by the numbers of its fields (30_encoding.md R72). -/
def LegalWord (v : Word) : Prop :=
  v.toNat % 256 ∈ [0x01, 0x02, 0x10, 0x11, 0x20, 0x21, 0x22, 0x23, 0x30, 0x31] ∧ v.toNat / 512 = 0 ∧
    (v.toNat / 256 % 2 = 0 ∨ v.toNat % 256 = 0x01)

/-! ## Commands -/

/-- The command ends with the error: the record is written, the destination set `ds` cleared, everything else kept
(60_exceptions.md R243, R244). -/
def State.FailsWith (s : State) (i : Instr) (ds : List Dest) (code : BitVec 8) (info : Word) : Prop :=
  ∃ t, exec i s = .next t ∧ t.EndedError code info ∧ t.Cleared ds ∧ State.KeepsAllBut ds s t

/-- The command reads IN[0 : IN_LEN]; HUF_DECODE and BIT_PACK read BITS[0 : BITS_LEN] (30_encoding.md R74). -/
def readsIn : Instr → Bool
  | .hufDecode => false
  | .bitPack => false
  | _ => true

/-- The two states agree on what the command reads (30_encoding.md R74): the parameters, its input, and CB or PAD where it reads it. -/
def InputsAgree (i : Instr) (s s' : State) : Prop :=
  s'.cfg = s.cfg ∧
  (readsIn i = true → s'.inLen = s.inLen ∧ ∀ j, j < s.inLen.toNat → Memory.read s'.inBuf j = Memory.read s.inBuf j) ∧
  (readsIn i = false → s'.bitsLen = s.bitsLen ∧
    ∀ j, j < s.bitsLen.toNat → Memory.read s'.bitsBuf j = Memory.read s.bitsBuf j) ∧
  (i = .hufEncode ∨ i = .hufDecode → s'.cb = s.cb) ∧
  (i = .bitUnpack → s'.pad = s.pad)

/-- The two states agree on every item of `ds` and on the error record. -/
def SameOutputs (ds : List Dest) (t t' : State) : Prop :=
  t'.err = t.err ∧ t'.errCode = t.errCode ∧ t'.errInfo = t.errInfo ∧
  (.out ∈ ds → Memory.SameCells t.outBuf t'.outBuf) ∧
  (.outLen ∈ ds → t'.outLen = t.outLen) ∧
  (.tokCount ∈ ds → t'.tokCount = t.tokCount) ∧
  (.cb ∈ ds → t'.cb = t.cb) ∧
  (.cbCount ∈ ds → t'.cbCount = t.cbCount) ∧
  (.bits ∈ ds → Memory.SameCells t.bitsBuf t'.bitsBuf) ∧
  (.bitsLen ∈ ds → t'.bitsLen = t.bitsLen) ∧
  (.pad ∈ ds → t'.pad = t.pad) ∧
  (.model ∈ ds → Memory.SameCells t.modelBuf t'.modelBuf) ∧
  (.modelLen ∈ ds → t'.modelLen = t.modelLen) ∧
  (.ctxPresent ∈ ds → t'.ctxPresent = t.ctxPresent) ∧
  (.ctxValid ∈ ds → t'.ctxValid = t.ctxValid)

/-- Every cell that the latched command would read holds a value (70_reset_and_hazards.md R274). Nothing is asked of the buffer it
does not read, of an input longer than its buffer, which no command reads (60_exceptions.md R246), or of an illegal word. -/
def State.InputsWritten (s : State) : Prop :=
  ∀ i, decode s.curCmd = .ok i →
    (readsIn i = true → s.inLen.toNat ≤ s.cfg.maxIn →
      ∀ j, j < s.inLen.toNat → (Memory.read s.inBuf j).isSome = true) ∧
    (readsIn i = false → s.bitsLen.toNat ≤ s.cfg.maxBits →
      ∀ j, j < s.bitsLen.toNat → (Memory.read s.bitsBuf j).isSome = true)

/-! ## The host port -/

/-- The read answers the value and changes nothing of the block. -/
def State.ReadsWord (s : State) (offset : Nat) (v : Word) : Prop :=
  ∃ t, hostAccess s (.read .reg offset 4) = .next t ∧ t.reply = .word v ∧ State.SameBlock s t

/-- The register write leaves the block as `u` says. -/
def State.WriteLeaves (s : State) (offset : Nat) (v : Word) (u : State) : Prop :=
  ∃ t, hostAccess s (.write .reg offset 4 v) = .next t ∧ State.SameBlock u t

end Sys2Proof.Machine
end

