-- ==== Sys2Proof/Certificates/Slice0/Obligations.lean ====
section
/-! DEFINITION. The statements for the provers. Each docstring names the rules of spec/ it states or rests on. -/

open Sys2Proof Sys2Proof.Machine

/-! ## Reset and the host port -/

/-- 10_state.md R44: what reset leaves. -/
def Obligations.ResetLeavesBlock : Prop := State.BlockIsReset State.reset

/-- 70_reset_and_hazards.md R270, R271: the reset step from any state in which the platform's reset is next, a running command
abandoned; and a host access accepted in that step is wholly after the reset or wholly before it. Which of the two is a free value
(log 4), so both are allowed. -/
def Obligations.ResetEventResetsBlock : Prop :=
  (∀ s rest, s.engineTurn = false → s.host = .reset :: rest →
    ∃ t, step s = .next t ∧ t.BlockIsReset ∧ t.cfg = s.cfg ∧ t.host = rest) ∧
  (∀ s a rest, s.engineTurn = false → s.host = .resetWith a :: rest →
    (∃ u, hostAccess (s.takeHostOp rest) a = .next u) →
    (∃ r, r.BlockIsReset ∧ r.cfg = s.cfg ∧ r.host = rest ∧ step s = hostAccess r a) ∨
    (∃ u t, hostAccess (s.takeHostOp rest) a = .next u ∧ step s = .next t ∧ t.BlockIsReset ∧ t.cfg = s.cfg ∧
      t.host = rest ∧ t.reply = u.reply))

/-- 10_state.md R21, R22, R24 to R33: ID reads its constant in every state; what each other register reads while IDLE, bit by bit for
STATUS; and which registers a write stores to. -/
def Obligations.RegisterAccess : Prop :=
  (∀ s : State, s.ReadsWord 0x00 0x4C5A3737#32) ∧
  ∀ s : State, s.phase = .idle →
    (∃ st : Word, s.ReadsWord 0x08 st ∧ st.getLsbD 0 = false ∧ st.getLsbD 1 = s.done ∧ st.getLsbD 2 = s.err ∧
      st.getLsbD 3 = s.ctxPresent ∧ st.getLsbD 4 = s.ctxValid ∧ ∀ i, 5 ≤ i → st.getLsbD i = false) ∧
    s.ReadsWord 0x04 0#32 ∧
    s.ReadsWord 0x0C (BitVec.ofNat 32 s.errCode.toNat) ∧ s.ReadsWord 0x10 s.errInfo ∧
    s.ReadsWord 0x14 s.inLen ∧ s.ReadsWord 0x18 s.outLen ∧ s.ReadsWord 0x1C s.bitsLen ∧
    s.ReadsWord 0x20 (BitVec.ofNat 32 s.pad.toNat) ∧ s.ReadsWord 0x24 s.modelLen ∧
    s.ReadsWord 0x28 (BitVec.ofNat 32 s.cbCount.toNat) ∧ s.ReadsWord 0x2C s.tokCount ∧
    ∀ v, s.WriteLeaves 0x14 v { s with inLen := v } ∧ s.WriteLeaves 0x1C v { s with bitsLen := v } ∧
      s.WriteLeaves 0x20 v { s with pad := BitVec.ofNat 8 (v.toNat % 256) }

/-- 20_memory.md R54: writes to read-only registers, OUT and MODEL have no effect and are no bus error; CMD reads 0. -/
def Obligations.ReadOnlyWritesIgnored : Prop :=
  ∀ s : State, ∀ v : Word,
    (∀ offset ∈ [0x00, 0x08, 0x0C, 0x10, 0x18, 0x24, 0x28, 0x2C], s.WriteLeaves offset v s) ∧
    (∀ a, a < s.cfg.maxOut → ∃ t, hostAccess s (.write .outBuf a 1 v) = .next t ∧ State.SameBlock s t) ∧
    (∀ a, a < s.cfg.maxModel → ∃ t, hostAccess s (.write .model a 1 v) = .next t ∧ State.SameBlock s t) ∧
    s.ReadsWord 0x04 0#32

/-- 20_memory.md R52: exactly the REG accesses with n = 4 and an offset that is a multiple of 4 below 0x30 are accepted; every other
one is a bus error. -/
def Obligations.RegBusErrors : Prop :=
  ∀ (s : State) (addr n : Nat) (v : Word),
    if n = 4 ∧ addr % 4 = 0 ∧ addr < 0x30 then
      (∃ t, hostAccess s (.read .reg addr n) = .next t) ∧ (∃ t, hostAccess s (.write .reg addr n v) = .next t)
    else hostAccess s (.read .reg addr n) = .fault (.busError .reg addr n) ∧
      hostAccess s (.write .reg addr n v) = .fault (.busError .reg addr n)

/-- 20_memory.md R53: exactly the buffer accesses with n = 1 and an address below the size of the space are accepted; every
other one is a bus error. What an accepted read answers is said in `IdleBufferAccess` and `BusyAccesses`. -/
def Obligations.BufferBusErrors : Prop :=
  ∀ (s : State) (sp : Space) (size : Nat),
    (sp, size) ∈ [(Space.inBuf, s.cfg.maxIn), (Space.outBuf, s.cfg.maxOut), (Space.bits, s.cfg.maxBits),
      (Space.model, s.cfg.maxModel)] →
    ∀ (addr n : Nat) (v : Word),
      if n = 1 ∧ addr < size then
        (∀ sp' addr' n', hostAccess s (.read sp addr n) ≠ .fault (.busError sp' addr' n')) ∧
          ∃ t, hostAccess s (.write sp addr n v) = .next t
      else hostAccess s (.read sp addr n) = .fault (.busError sp addr n) ∧
        hostAccess s (.write sp addr n v) = .fault (.busError sp addr n)

/-- 20_memory.md R55, 10_state.md R37, R39, R45: while IDLE a write to IN stores v[7:0] and a write to BITS stores v[0], at that cell and
no other, and a read answers what the cell holds; OUT, BITS and MODEL at or beyond their length registers answer no defined value
(for BITS that is log 6); and a read of any other cell that holds no value faults (60_exceptions.md R242, the model's choice of log
25 and, for BITS that an error cleared below a BITS_LEN raised since, of log 26). -/
def Obligations.IdleBufferAccess : Prop :=
  ∀ s : State, s.phase = .idle →
    (∀ a v, a < s.cfg.maxIn → ∃ t, hostAccess s (.write .inBuf a 1 v) = .next t ∧
      Memory.read t.inBuf a = some (BitVec.ofNat 8 (v.toNat % 256)) ∧
      (∀ b, b ≠ a → Memory.read t.inBuf b = Memory.read s.inBuf b) ∧
      State.SameBlock { s with inBuf := t.inBuf } t) ∧
    (∀ a v, a < s.cfg.maxBits → ∃ t, hostAccess s (.write .bits a 1 v) = .next t ∧
      Memory.read t.bitsBuf a = some (v.getLsbD 0) ∧
      (∀ b, b ≠ a → Memory.read t.bitsBuf b = Memory.read s.bitsBuf b) ∧
      State.SameBlock { s with bitsBuf := t.bitsBuf } t) ∧
    (∀ a b, a < s.cfg.maxIn → Memory.read s.inBuf a = some b →
      ∃ t, hostAccess s (.read .inBuf a 1) = .next t ∧ t.reply = .byte b) ∧
    (∀ a b, a < s.cfg.maxOut → a < s.outLen.toNat → Memory.read s.outBuf a = some b →
      ∃ t, hostAccess s (.read .outBuf a 1) = .next t ∧ t.reply = .byte b) ∧
    (∀ a b, a < s.cfg.maxBits → a < s.bitsLen.toNat → Memory.read s.bitsBuf a = some b →
      ∃ t, hostAccess s (.read .bits a 1) = .next t ∧ t.reply = .byte (if b then 0x01#8 else 0x00#8)) ∧
    (∀ a b, a < s.cfg.maxModel → a < s.modelLen.toNat → Memory.read s.modelBuf a = some b →
      ∃ t, hostAccess s (.read .model a 1) = .next t ∧ t.reply = .byte b) ∧
    (∀ sp a len size, (sp, len, size) ∈ [(Space.outBuf, s.outLen.toNat, s.cfg.maxOut),
        (Space.bits, s.bitsLen.toNat, s.cfg.maxBits), (Space.model, s.modelLen.toNat, s.cfg.maxModel)] →
      len ≤ a → a < size → ∃ t v, hostAccess s (.read sp a 1) = .next t ∧ t.reply = .unspecByte v) ∧
    (∀ a, a < s.cfg.maxIn → Memory.read s.inBuf a = none →
      hostAccess s (.read .inBuf a 1) = .fault (.unwrittenCell .inBuf a)) ∧
    (∀ a, a < s.cfg.maxOut → a < s.outLen.toNat → Memory.read s.outBuf a = none →
      hostAccess s (.read .outBuf a 1) = .fault (.unwrittenCell .outBuf a)) ∧
    (∀ a, a < s.cfg.maxBits → a < s.bitsLen.toNat → Memory.read s.bitsBuf a = none →
      hostAccess s (.read .bits a 1) = .fault (.unwrittenCell .bits a)) ∧
    (∀ a, a < s.cfg.maxModel → a < s.modelLen.toNat → Memory.read s.modelBuf a = none →
      hostAccess s (.read .model a 1) = .fault (.unwrittenCell .model a))

/-- 20_memory.md R56: while BUSY every accepted write is ignored; ID and STATUS read their current value (STATUS has BUSY set), CMD,
ERRCODE and ERRINFO read 0, and every other register and every buffer cell reads UNSPEC. -/
def Obligations.BusyAccesses : Prop :=
  ∀ s : State, s.phase = .busy →
    (∀ sp addr n v t, hostAccess s (.write sp addr n v) = .next t → State.SameBlock s t) ∧
    s.ReadsWord 0x00 0x4C5A3737#32 ∧
    (∃ st : Word, s.ReadsWord 0x08 st ∧ st.getLsbD 0 = true ∧ st.getLsbD 1 = s.done ∧ st.getLsbD 2 = s.err ∧
      st.getLsbD 3 = s.ctxPresent ∧ st.getLsbD 4 = s.ctxValid ∧ ∀ i, 5 ≤ i → st.getLsbD i = false) ∧
    s.ReadsWord 0x04 0#32 ∧ s.ReadsWord 0x0C 0#32 ∧ s.ReadsWord 0x10 0#32 ∧
    (∀ offset ∈ [0x14, 0x18, 0x1C, 0x20, 0x24, 0x28, 0x2C],
      ∃ t v, hostAccess s (.read .reg offset 4) = .next t ∧ t.reply = .unspecWord v) ∧
    (∀ sp addr size, (sp, size) ∈ [(Space.inBuf, s.cfg.maxIn), (Space.outBuf, s.cfg.maxOut), (Space.bits, s.cfg.maxBits),
        (Space.model, s.cfg.maxModel)] → addr < size →
      ∃ t v, hostAccess s (.read sp addr 1) = .next t ∧ t.reply = .unspecByte v)

/-- 20_memory.md R59, 70_reset_and_hazards.md R285: no read has a side effect on the block, and while IDLE reading again answers the
same; the one host step that makes an IDLE block BUSY is a write to CMD; and a host step between the CMD write and the engine's step
leaves the block as it is, BUSY included, unless it is a reset. -/
def Obligations.OnlyCmdWriteStartsCommand : Prop :=
  (∀ s sp addr n t, hostAccess s (.read sp addr n) = .next t → State.SameBlock s t ∧
    (s.phase = .idle → ∃ u, hostAccess t (.read sp addr n) = .next u ∧ u.reply = t.reply)) ∧
  (∀ s t, s.phase = .idle → step s = .next t → t.phase = .busy →
    ∃ v rest, s.host = .access (.write .reg 0x04 4 v) :: rest ∨ s.host = .resetWith (.write .reg 0x04 4 v) :: rest) ∧
  (∀ s t op rest, s.phase = .busy → s.engineDelay ≠ 0 → s.host = op :: rest → op ≠ .reset → (∀ a, op ≠ .resetWith a) →
    step s = .next t → State.SameBlock s t)

/-! ## Command words and the step -/

/-- 10_state.md R36: what a write to CMD does while IDLE, and that a command's end clears BUSY, sets DONE and makes the phase IDLE. -/
def Obligations.CommandStartAndEnd : Prop :=
  (∀ (s : State) (v : Word), s.phase = .idle →
    s.WriteLeaves 0x04 v { s with
      curCmd := v, phase := .busy, done := false, err := false, ctxPresent := false, ctxValid := false
      errCode := 0#8, errInfo := 0#32 }) ∧
  (∀ i s t, exec i s = .next t → t.phase = .idle ∧ t.done = true ∧ (t.err = true ↔ t.errCode ≠ 0#8))

/-- 70_reset_and_hazards.md R285, 30_encoding.md R72, 60_exceptions.md R256: with a command running and the engine's turn come,
a step is the latched command; otherwise it is the host's next operation; with nothing pending an IDLE block holds its state. The words
`withFetchWord` stores are run by the very next step. -/
def Obligations.StepRunsDecodedCommand : Prop :=
  (∀ s i, s.phase = .busy → (s.host = [] ∨ s.engineDelay = 0) → decode s.curCmd = .ok i → step s = exec i s) ∧
  (∀ s op rest, (s.phase = .idle ∨ s.engineDelay ≠ 0) → s.host = op :: rest → step s = hostStep s op rest) ∧
  (∀ s, s.phase = .idle → s.host = [] → step s = .next s) ∧
  (∀ (s : State) (i : Instr),
    step (s.withFetchWord 32 (encode i).toNat) = exec i (s.withFetchWord 32 (encode i).toNat))

/-- 30_encoding.md R72: a word is a command exactly when it is legal; the step of a legal one runs the command whose word it is, and the
step of an illegal one raises IllegalCommand with the word as ERRINFO and changes nothing else. -/
def Obligations.LegalityOfWords : Prop :=
  (∀ v, (∃ i, decode v = .ok i) ↔ LegalWord v) ∧
  (∀ s, s.phase = .busy → (s.host = [] ∨ s.engineDelay = 0) → LegalWord s.curCmd →
    ∃ i, encode i = s.curCmd ∧ step s = exec i s) ∧
  (∀ s, s.phase = .busy → (s.host = [] ∨ s.engineDelay = 0) → ¬ LegalWord s.curCmd →
    ∃ t, step s = .next t ∧ t.EndedError 4#8 s.curCmd ∧ State.KeepsAllBut [] s t)

/-- 30_encoding.md R70, R71: decoding and encoding are inverse, in both directions, over all words and all commands. -/
def Obligations.DecodeEncodeAgree : Prop :=
  (∀ v i, decode v = .ok i ↔ encode i = v) ∧ (∀ i, i.wf = true ∧ decode (encode i) = .ok i)

/-- 30_encoding.md R71 to R73: the words of the ten commands, and some illegal ones (95_test_vectors.md V-CMD). -/
def Obligations.OpcodeWords : Prop :=
  decode 0x00000001#32 = .ok (.compress false) ∧ decode 0x00000101#32 = .ok (.compress true) ∧
  decode 0x00000002#32 = .ok .decompress ∧ decode 0x00000010#32 = .ok .lzEncode ∧
  decode 0x00000011#32 = .ok .lzDecode ∧ decode 0x00000020#32 = .ok .hufBuild ∧
  decode 0x00000021#32 = .ok .hufEncode ∧ decode 0x00000022#32 = .ok .hufDecode ∧
  decode 0x00000023#32 = .ok .cbLoad ∧ decode 0x00000030#32 = .ok .bitPack ∧
  decode 0x00000031#32 = .ok .bitUnpack ∧
  decode 0x00000000#32 = .error .reservedOpcode ∧ decode 0x00000111#32 = .error .ctxWithoutCompress ∧
  decode 0x00000201#32 = .error .rsvdNonZero ∧ decode 0x80000010#32 = .error .rsvdNonZero

/-! ## Window Matcher -/

/-- 40_window_matcher.md R100: the match length counts equal bytes and cannot be extended. -/
def Obligations.MatchLengthIsMaximal : Prop :=
  ∀ (c : Config) (data : List Byte) (i d : Nat), i < data.length → 1 ≤ d → d ≤ i →
    let l := matchLength c data i d
    l ≤ c.maxMatch ∧ i + l ≤ data.length ∧ (∀ j, j < l → data[i - d + j]? = data[i + j]?) ∧
      (l = c.maxMatch ∨ i + l = data.length ∨ data[i - d + l]? ≠ data[i + l]?)

/-- 40_window_matcher.md R101: the longest match in the window, the smallest distance on a tie, and (0, 0) when there is none. -/
def Obligations.LongestPrefersSmallestDistance : Prop :=
  ∀ (c : Config) (data : List Byte) (i : Nat), i < data.length →
    let m := longest c data i
    (∀ d, 1 ≤ d → d ≤ min c.w i → matchLength c data i d ≤ m.1) ∧
    (m = (0, 0) ∨
      (1 ≤ m.2 ∧ m.2 ≤ min c.w i ∧ m.1 = matchLength c data i m.2 ∧ 0 < m.1 ∧
        ∀ d, 1 ≤ d → d < m.2 → matchLength c data i d < m.1))

/-- 40_window_matcher.md R102: at every cursor the token is the longest match if it is long enough, else the literal there; the cursor
advances by what the token stands for, and the tokens stand for the whole input. -/
def Obligations.EncoderIsGreedy : Prop :=
  ∀ (c : Config) (data : List Byte), c.legal = true →
    spanOf (lzEnc c data) = data.length ∧
    ∀ before tok after, lzEnc c data = before ++ tok :: after →
      let i := spanOf before
      i < data.length ∧
      ((longest c data i).1 ≥ c.minMatch → tok = .backRef (longest c data i).1 (longest c data i).2) ∧
      ((longest c data i).1 < c.minMatch → ∃ b, data[i]? = some b ∧ tok = .literal b)

/-- 40_window_matcher.md R103: the properties of the encoder's output. -/
def Obligations.EncoderOutputProperties : Prop :=
  ∀ (c : Config) (data : List Byte), c.legal = true →
    (∀ before l d after, lzEnc c data = before ++ .backRef l d :: after →
      c.minMatch ≤ l ∧ l ≤ min c.maxMatch (data.length - spanOf before) ∧ 1 ≤ d ∧ d ≤ min c.w (spanOf before)) ∧
    spanOf (lzEnc c data) = data.length ∧ lzEnc c [] = [] ∧
    (data ≠ [] → ∃ b rest, lzEnc c data = .literal b :: rest)

/-- 40_window_matcher.md R104, R105, 30_encoding.md R80: the bytes of a token list, their number, and what parsing one token gives. -/
def Obligations.TokenBytes : Prop :=
  (∀ b, ser [.literal b] = [0x00#8, b]) ∧
  (∀ l d, ser [.backRef l d] = [0x01#8, BitVec.ofNat 8 l, BitVec.ofNat 8 d]) ∧
  (∀ ts us, ser (ts ++ us) = ser ts ++ ser us) ∧
  (∀ ts, (ser ts).length = 2 * ts.countP Token.isLiteral + 3 * ts.countP (fun t => !t.isLiteral)) ∧
  (∀ b rest, parseToken (0x00#8 :: b :: rest) = some (.literal b, rest)) ∧
  (∀ l d rest, parseToken (0x01#8 :: l :: d :: rest) = some (.backRef l.toNat d.toNat, rest)) ∧
  (parseToken [0x00#8] = none ∧ parseToken [0x01#8] = none ∧ ∀ l, parseToken [0x01#8, l] = none) ∧
  (∀ (tag : Byte) rest, 2 ≤ tag.toNat → parseToken (tag :: rest) = none)

/-- 40_window_matcher.md R106: a literal appends its byte; a match appends `l` bytes, each equal to the byte `d` before it, so that a match
may copy bytes it has just written. -/
def Obligations.ReplayCopiesByteByByte : Prop :=
  (∀ out b, replay out (.literal b) = out ++ [b]) ∧
  (∀ (out : List Byte) (l d : Nat), 1 ≤ d → d ≤ out.length →
    let r := replay out (.backRef l d)
    r.length = out.length + l ∧ r.take out.length = out ∧
      ∀ j, j < l → r[out.length + j]? = r[out.length + j - d]?)

/-- 40_window_matcher.md R107, R108: the empty stream decodes to nothing; a stream that decodes, followed by one token that may be
replayed, decodes to the replay; and decoding fails exactly at the first token, in stream order, that is truncated, has an unknown tag,
or is a match outside the bounds or reaching before the output's start, with the offset of its tag byte. -/
def Obligations.DecoderReplaysUntilFirstFailure : Prop :=
  ∀ (c : Config) (tb : List Byte),
    lzDec c [] = .ok ([], 0) ∧
    (∀ out n one tok, lzDec c tb = .ok (out, n) → parseToken one = some (tok, []) →
      (∀ l d, tok = .backRef l d → c.minMatch ≤ l ∧ l ≤ c.maxMatch ∧ 1 ≤ d ∧ d ≤ c.w ∧ d ≤ out.length) →
      lzDec c (tb ++ one) = .ok (replay out tok, n + 1)) ∧
    (∀ e, lzDec c tb = .error e → ∃ p, e = .corruptStream p) ∧
    ∀ p, lzDec c tb = .error (.corruptStream p) ↔
      p < tb.length ∧ ∃ out n, lzDec c (tb.take p) = .ok (out, n) ∧
        (parseToken (tb.drop p) = none ∨
          ∃ l d rest, parseToken (tb.drop p) = some (.backRef l d, rest) ∧
            ¬ (c.minMatch ≤ l ∧ l ≤ c.maxMatch ∧ 1 ≤ d ∧ d ≤ c.w ∧ d ≤ out.length))

/-- 40_window_matcher.md R109: the matcher round-trip law. -/
def Obligations.MatcherRoundTrip : Prop :=
  ∀ (c : Config) (data : List Byte), c.legal = true →
    lzDec c (ser (lzEnc c data)) = .ok (data, (lzEnc c data).length)

/-! ## Frequency Model and Prefix Coder -/

/-- 41_prefix_coder.md R130: exactly the symbols of s, each with its number of occurrences, in the order of first occurrence. -/
def Obligations.FrequencyTableFirstSeen : Prop :=
  freqOf [] = [] ∧
  ∀ s : List Byte, ((freqOf s).map Prod.fst).Nodup ∧
    (∀ b n, (b, n) ∈ freqOf s ↔ b ∈ s ∧ n = s.count b) ∧
    ((freqOf s).map Prod.fst).Pairwise (fun x y => s.idxOf x < s.idxOf y) ∧
    FreqTable.total (freqOf s) = s.length

/-- 41_prefix_coder.md R132, R133, 00_scope.md R15: the sort is stable and ascending; a merge takes the first two of the sorted nodes, the
first as the left child, and appends the merged node at the back; the merging goes on until one node is left. The tree has one leaf per
entry, every internal node weighs what its children weigh, and the root weighs the sum of the counts. -/
def Obligations.TreeBuilderMergesStably : Prop :=
  (∀ ts, (sortByWeight ts).Perm ts ∧ (sortByWeight ts).Pairwise (fun a b => a.weight ≤ b.weight) ∧
    ∀ w, (sortByWeight ts).filter (fun t => t.weight = w) = ts.filter (fun t => t.weight = w)) ∧
  (∀ ts fuel, 2 ≤ ts.length → ∃ a b rest, sortByWeight ts = a :: b :: rest ∧
    mergeNodes (fuel + 1) ts = mergeNodes fuel (rest ++ [.node (a.weight + b.weight) a b])) ∧
  (∀ t fuel, mergeNodes fuel [t] = [t]) ∧
  buildTree [] = none ∧
  (∀ freq, freq ≠ [] → ∃ t, mergeNodes freq.length (freq.map (fun e => .leaf e.1 e.2)) = [t] ∧ buildTree freq = some t ∧
    t.leaves.Perm freq ∧ t.WeightsAdd ∧ t.weight = FreqTable.total freq)

/-- 41_prefix_coder.md R134, R135: the code of a leaf is the path to it, the entries stand in left-first leaf order, the empty tree gives
the empty codebook and a one-leaf tree the code "0". -/
def Obligations.CodesAreRootToLeafPaths : Prop :=
  genCodes none = [] ∧ (∀ b w, genCodes (some (.leaf b w)) = [(b, [false])]) ∧
  (∀ w l r, let t : Tree := .node w l r
    (genCodes (some t)).map Prod.fst = t.leaves.map Prod.fst ∧
      ∀ b code, (b, code) ∈ genCodes (some t) ↔ t.follow code = some b) ∧
  (∀ b n, codebookOf (freqOf (List.replicate (n + 1) b)) = [(b, [false])])

/-- 41_prefix_coder.md R142: the generated codebook is prefix-free, repeats no code, has exactly one entry per distinct symbol, and
decoding the encoding gives the symbols back. -/
def Obligations.GeneratedCodebookValid : Prop :=
  ∀ s : List Byte, s ≠ [] →
    let cb := codebookOf (freqOf s)
    Codebook.Valid cb ∧ Codebook.PrefixFree cb ∧ (∀ b, b ∈ cb.map Prod.fst ↔ b ∈ s) ∧
      ∃ bits, hufEnc cb s = .ok bits ∧ hufDec cb bits = s

/-- 41_prefix_coder.md R136, 30_encoding.md R81: the text of a codebook spells its entries in list order, separated by ';', and parsing the
text of any codebook gives the codebook back. -/
def Obligations.CodebookTextRoundTrip : Prop :=
  cbText [] = [] ∧
  ∀ cb, Codebook.Valid cb → cbParse (cbText cb) = .ok cb ∧
    (cb ≠ [] → ∃ pieces, cbText cb = List.intercalate [0x3B#8] pieces ∧ List.Forall₂ SpellsEntry pieces cb ∧
      ∀ p ∈ pieces, ∀ b, p.head? = some 0x30#8 → p[1]? = some b → b = 0x3A#8)

/-- 30_encoding.md R82, 41_prefix_coder.md R137, 60_exceptions.md R240: a text is accepted exactly when it is empty or its pieces
between the ';' each spell an entry and no symbol or code repeats. Any other text raises CorruptContainer with a sub-code: where the
pieces before one spell distinct entries, that piece, the first that fails, raises 4 if it spells no entry, 5 if it repeats a symbol
and 6 if it repeats a code, whatever follows. That a piece repeating both raises 5 is the model's choice (log 12). -/
def Obligations.CodebookTextAccepted : Prop :=
  (∀ t,
    (∀ cb, cbParse t = .ok cb ↔ (t = [] ∧ cb = []) ∨
      (Codebook.Valid cb ∧ ∃ pieces, pieces ≠ [] ∧ t = List.intercalate [0x3B#8] pieces ∧
        List.Forall₂ SpellsEntry pieces cb)) ∧
    ∀ e, cbParse t = .error e → e.code = 1#8 ∧ (e.info = 4#32 ∨ e.info = 5#32 ∨ e.info = 6#32)) ∧
  ∀ (before : List (List Byte)) (cb : Codebook) (piece : List Byte) (after : List (List Byte)),
    List.Forall₂ SpellsEntry before cb → Codebook.Valid cb → 0x3B#8 ∉ piece →
    let t := List.intercalate [0x3B#8] (before ++ piece :: after)
    ((∀ e, ¬ SpellsEntry piece e) → t ≠ [] → ∃ err, cbParse t = .error err ∧ err.code = 1#8 ∧ err.info = 4#32) ∧
    (∀ e, SpellsEntry piece e → e.1 ∈ cb.map Prod.fst →
      ∃ err, cbParse t = .error err ∧ err.code = 1#8 ∧ err.info = 5#32) ∧
    (∀ e, SpellsEntry piece e → e.1 ∉ cb.map Prod.fst → e.2 ∈ cb.map Prod.snd →
      ∃ err, cbParse t = .error err ∧ err.code = 1#8 ∧ err.info = 6#32)

/-- 41_prefix_coder.md R138, R139: encoding concatenates the codes in input order; it fails exactly at the first symbol with no entry. -/
def Obligations.EncoderConcatenatesCodes : Prop :=
  ∀ (cb : Codebook) (s : List Byte),
    (∀ bits, hufEnc cb s = .ok bits ↔ ∃ codes : List Code, s.map (codeOf cb) = codes.map some ∧ bits = codes.flatten) ∧
    (∀ e, hufEnc cb s = .error e ↔ ∃ before b after, s = before ++ b :: after ∧
      (∀ x ∈ before, codeOf cb x ≠ none) ∧ codeOf cb b = none ∧ e = .unknownSymbol b)

/-- 41_prefix_coder.md R140, R141: the shortest start of the bits that is a code gives that code's symbol, and decoding goes on after it;
bits no start of which is a code are discarded; a code that has another code as a proper prefix is never emitted; the empty codebook
decodes nothing. -/
def Obligations.GreedyDecoding : Prop :=
  (∀ (cb : Codebook) (b : Byte) (code : Code) (rest : List Bool), Codebook.Valid cb → (b, code) ∈ cb →
    (∀ k, 0 < k → k < code.length → ∀ e ∈ cb, e.2 ≠ code.take k) → hufDec cb (code ++ rest) = b :: hufDec cb rest) ∧
  (∀ (cb : Codebook) (bits : List Bool), (∀ k, 0 < k → k ≤ bits.length → ∀ e ∈ cb, e.2 ≠ bits.take k) → hufDec cb bits = []) ∧
  (∀ (cb : Codebook) (e f : Byte × Code) (bits : List Bool), Codebook.Valid cb → e ∈ cb → f ∈ cb → e.2 <+: f.2 → e.2 ≠ f.2 →
    f.1 ∉ hufDec cb bits) ∧
  (∀ bits, hufDec [] bits = [])

/-! ## Bit Packer -/

/-- 42_bit_packer.md R170, R171, 30_encoding.md R85: bit j is in byte j / 8 at position 7 − (j mod 8), the pad bits are zero and fill the low
end of the last byte, and the pad is 0 to 7. -/
def Obligations.PackedBitOrder : Prop :=
  ∀ bits : List Bool,
    let p := pack bits
    p.2 = (8 - bits.length % 8) % 8 ∧ p.2 ≤ 7 ∧ (p.2 = 0 ↔ bits.length % 8 = 0) ∧
    p.1.length = (bits.length + 7) / 8 ∧ p.1.length * 8 - p.2 = bits.length ∧
    ∀ j k, j < p.1.length → k < 8 → (p.1[j]?).map (fun b => b.getLsbD (7 - k)) = some (bits.getD (8 * j + k) false)

/-- 42_bit_packer.md R172, R173: the checks of UNPACK in order, and the bits it gives. -/
def Obligations.UnpackChecksAndBits : Prop :=
  ∀ (bytes : List Byte) (pad : Nat),
    (7 < pad → unpack bytes pad = .error (.corruptContainer .padRange)) ∧
    (pad ≤ 7 → bytes = [] → 0 < pad → unpack bytes pad = .error (.corruptContainer .padWithoutPayload)) ∧
    (pad ≤ 7 → (bytes ≠ [] ∨ pad = 0) → ∃ bits, unpack bytes pad = .ok bits ∧ bits.length = 8 * bytes.length - pad ∧
      ∀ j, j < bits.length → bits[j]? = (bytes[j / 8]?).map (fun b => b.getLsbD (7 - j % 8)))

/-- 42_bit_packer.md R174: the bit-pack round-trip law. -/
def Obligations.BitPackRoundTrip : Prop :=
  ∀ bits : List Bool, unpack (pack bits).1 (pack bits).2 = .ok bits

/-! ## Context-model collaborator -/

/-- 43_context_interface.md R192, R194: training counts each window of k + 1 symbols, and is a no-op on a stream of at most k; the
adaptive table lists the symbols of the stream in first-seen order, and starting from its number of occurrences each count is boosted, in
order of position, where the symbol was observed under its context: ×1.5 above 0.7, ×1.2 above 0.5, truncated. Every table the block
uses repeats no symbol (log 10). -/
def Obligations.ContextTrainingAndTable : Prop :=
  (∀ s k, s.length ≤ k → train s k = []) ∧
  (∀ (s : List Byte) (k : Nat) (ctx : List Byte) (x : Byte), ctx.length = k →
    CtxTable.observed (train s k) ctx x =
      (List.range (s.length - k)).countP (fun i => (s.drop i).take k = ctx ∧ s[i + k]? = some x)) ∧
  (∀ (s : List Byte) (t : CtxTable) (k : Nat), (adaptive s t k).map Prod.fst = (freqOf s).map Prod.fst ∧
    ∀ x, FreqTable.count (adaptive s t k) x = (List.range (s.length - k)).foldl (fun f i =>
      let c := CtxTable.observed t ((s.drop i).take k) x
      let n := FreqTable.total ((CtxTable.counter t ((s.drop i).take k)).getD [])
      if s[i + k]? = some x ∧ 0 < c then
        (if 10 * c > 7 * n then 3 * f / 2 else if 2 * c > n then 6 * f / 5 else f)
      else f) (s.count x)) ∧
  (∀ c tb, ((ctxFn c tb).1.map Prod.fst).Nodup)

/-- 41_prefix_coder.md R139, 43_context_interface.md R191: a compression with USE_CTX = 0, or with the reference collaborator, never
raises UnknownSymbol. -/
def Obligations.CompressNeverUnknownSymbol : Prop :=
  ∀ (c : Config) (data : List Byte) (b : Byte),
    compressFn c data false ≠ .error (.unknownSymbol b) ∧
    (c.collaborator = .reference → compressFn c data true ≠ .error (.unknownSymbol b))

/-! ## Container Codec -/

/-- 44_container_codec.md R210, R211: the fields of a blob, its length, and the five bytes of the empty input. -/
def Obligations.BlobLayout : Prop :=
  (∀ text pad packed model, assemble text pad packed false model =
      be32Bytes text.length ++ text ++ [BitVec.ofNat 8 pad] ++ packed ∧
    (assemble text pad packed false model).length = 5 + text.length + packed.length) ∧
  (∀ text pad packed model, assemble text pad packed true model =
      assemble text pad packed false [] ++ [0x43#8, 0x54#8, 0x58#8, 0x4D#8, 0x4F#8, 0x44#8, 0x45#8, 0x4C#8] ++
        le32Bytes model.length ++ model ∧
    (assemble text pad packed true model).length = 5 + text.length + packed.length + 12 + model.length) ∧
  (∀ n, n < 2 ^ 32 → be32 (be32Bytes n) = n ∧ le32 (le32Bytes n) = n) ∧
  (∀ c : Config, 5 ≤ c.maxOut → ∃ r, compressFn c [] false = .ok r ∧ r.blob = [0x00#8, 0x00#8, 0x00#8, 0x00#8, 0x00#8])

/-- 44_container_codec.md R212: the header checks, in order. -/
def Obligations.HeaderChecksInOrder : Prop :=
  ∀ b : List Byte,
    let n := (b.getD 0 0#8).toNat * 2 ^ 24 + (b.getD 1 0#8).toNat * 2 ^ 16 + (b.getD 2 0#8).toNat * 2 ^ 8 +
      (b.getD 3 0#8).toNat
    let pad := (b.getD (4 + n) 0#8).toNat
    (b.length < 4 → parseHeader b = .error (.corruptContainer .shortBlob)) ∧
    (4 ≤ b.length → b.length < 4 + n + 1 → parseHeader b = .error (.corruptContainer .textTooLong)) ∧
    (4 + n + 1 ≤ b.length → 7 < pad → parseHeader b = .error (.corruptContainer .padRange)) ∧
    (4 + n + 1 ≤ b.length → pad ≤ 7 → ∀ e, cbParse ((b.drop 4).take n) = .error e → parseHeader b = .error e) ∧
    (4 + n + 1 ≤ b.length → pad ≤ 7 → ∀ cb, cbParse ((b.drop 4).take n) = .ok cb →
      parseHeader b = .ok ⟨pad, cb, b.drop (4 + n + 1)⟩)

/-- 44_container_codec.md R213: the trailer is found at the greatest offset at which the marker stands. -/
def Obligations.TrailerIsLastMarker : Prop :=
  ∀ p : List Byte,
    let mark : List Byte := [0x43#8, 0x54#8, 0x58#8, 0x4D#8, 0x4F#8, 0x44#8, 0x45#8, 0x4C#8]
    ((∀ q, ¬ mark <+: p.drop q) → findTrailer p = (p, none)) ∧
    (∀ q, mark <+: p.drop q → (∀ q', q < q' → ¬ mark <+: p.drop q') →
      findTrailer p = (p.take q, some (p.drop (q + 8))))

/-- 44_container_codec.md R222: what follows the last marker changes nothing of the decoded output, nor whether there is one. -/
def Obligations.TrailerIsAdvisory : Prop :=
  ∀ (c : Config) (front tail tail' : List Byte) (r : Decompressed),
    5 + be32 front ≤ front.length →
    (∀ q, front.length < q → ¬ marker <+: (front ++ marker ++ tail).drop q) →
    (∀ q, front.length < q → ¬ marker <+: (front ++ marker ++ tail').drop q) →
    decompressFn c (front ++ marker ++ tail) = .ok r →
    ∃ r', decompressFn c (front ++ marker ++ tail') = .ok r' ∧ r'.out = r.out ∧ r'.ntok = r.ntok ∧ r'.cb = r.cb ∧
      r'.bits = r.bits ∧ r'.pad = r.pad ∧ r'.present = true ∧ r.present = true

/-- 44_container_codec.md R220 with its proviso: the marker stands in the blob at no offset at or beyond the payload's start but the
trailer's own. -/
def Obligations.ContainerRoundTrip : Prop :=
  ∀ (c : Config) (data : List Byte) (useCtx : Bool) (r : Compressed),
    c.legal = true → compressFn c data useCtx = .ok r → data.length ≤ c.maxOut →
    (∀ p, 5 + (cbText r.cb).length ≤ p → marker <+: r.blob.drop p →
      useCtx = true ∧ p = 5 + (cbText r.cb).length + (pack r.bits).1.length) →
    decompressFn c r.blob = .ok ⟨data, r.toks.length, r.cb, r.bits, r.pad, useCtx, if useCtx then some r.model else none⟩

/-! ## The commands -/

/-- 40_window_matcher.md R110. -/
def Obligations.LzEncodeCommand : Prop :=
  encode .lzEncode = 0x00000010#32 ∧ ∀ s : State, s.cfg.legal = true →
    (s.cfg.maxIn < s.inLen.toNat → s.FailsWith .lzEncode [.out, .outLen, .tokCount] 5#8 1#32) ∧
    ∀ data, s.InputIs data → data.length ≤ s.cfg.maxIn →
      (s.cfg.maxOut < (ser (lzEnc s.cfg data)).length → s.FailsWith .lzEncode [.out, .outLen, .tokCount] 5#8 2#32) ∧
      ((ser (lzEnc s.cfg data)).length ≤ s.cfg.maxOut →
        ∃ t, exec .lzEncode s = .next t ∧ t.EndedDone ∧
          Memory.HoldsExactly t.outBuf (ser (lzEnc s.cfg data)) ∧
          t.outLen.toNat = (ser (lzEnc s.cfg data)).length ∧ t.tokCount.toNat = (lzEnc s.cfg data).length ∧
          State.KeepsAllBut [.out, .outLen, .tokCount] s t ∧ State.KeepsTrailerFlags s t)

/-- 40_window_matcher.md R111. -/
def Obligations.LzDecodeCommand : Prop :=
  encode .lzDecode = 0x00000011#32 ∧ ∀ s : State, s.cfg.legal = true →
    (s.cfg.maxIn < s.inLen.toNat → s.FailsWith .lzDecode [.out, .outLen, .tokCount] 5#8 1#32) ∧
    ∀ tb, s.InputIs tb → tb.length ≤ s.cfg.maxIn →
      (∀ p, lzDec s.cfg tb = .error (.corruptStream p) →
        s.FailsWith .lzDecode [.out, .outLen, .tokCount] 3#8 (BitVec.ofNat 32 p)) ∧
      ∀ out ntok, lzDec s.cfg tb = .ok (out, ntok) →
        (s.cfg.maxOut < out.length → s.FailsWith .lzDecode [.out, .outLen, .tokCount] 5#8 2#32) ∧
        (out.length ≤ s.cfg.maxOut →
          ∃ t, exec .lzDecode s = .next t ∧ t.EndedDone ∧ Memory.HoldsExactly t.outBuf out ∧
            t.outLen.toNat = out.length ∧ t.tokCount.toNat = ntok ∧
            State.KeepsAllBut [.out, .outLen, .tokCount] s t ∧ State.KeepsTrailerFlags s t)

/-- 41_prefix_coder.md R144. -/
def Obligations.HufBuildCommand : Prop :=
  encode .hufBuild = 0x00000020#32 ∧ ∀ s : State, s.cfg.legal = true →
    (s.cfg.maxIn < s.inLen.toNat → s.FailsWith .hufBuild [.cb, .cbCount, .out, .outLen] 5#8 1#32) ∧
    ∀ data, s.InputIs data → data.length ≤ s.cfg.maxIn →
      let cb := codebookOf (freqOf data)
      (2 ^ s.cfg.freqBits - 1 < FreqTable.total (freqOf data) →
        s.FailsWith .hufBuild [.cb, .cbCount, .out, .outLen] 5#8 5#32) ∧
      (FreqTable.total (freqOf data) ≤ 2 ^ s.cfg.freqBits - 1 → s.cfg.maxOut < (cbText cb).length →
        s.FailsWith .hufBuild [.cb, .cbCount, .out, .outLen] 5#8 2#32) ∧
      (FreqTable.total (freqOf data) ≤ 2 ^ s.cfg.freqBits - 1 → (cbText cb).length ≤ s.cfg.maxOut →
        ∃ t, exec .hufBuild s = .next t ∧ t.EndedDone ∧ t.cb = cb ∧ t.cbCount.toNat = cb.length ∧
          Memory.HoldsExactly t.outBuf (cbText cb) ∧ t.outLen.toNat = (cbText cb).length ∧
          State.KeepsAllBut [.cb, .cbCount, .out, .outLen] s t ∧ State.KeepsTrailerFlags s t)

/-- 41_prefix_coder.md R145. That BITS holds no value at or beyond the new BITS_LEN after a success is the model's choice of log 9,
DEDUCED from 92 D20. -/
def Obligations.HufEncodeCommand : Prop :=
  encode .hufEncode = 0x00000021#32 ∧ ∀ s : State, s.cfg.legal = true →
    (s.cfg.maxIn < s.inLen.toNat → s.FailsWith .hufEncode [.bits, .bitsLen] 5#8 1#32) ∧
    ∀ data, s.InputIs data → data.length ≤ s.cfg.maxIn →
      (∀ b, hufEnc s.cb data = .error (.unknownSymbol b) →
        s.FailsWith .hufEncode [.bits, .bitsLen] 2#8 (BitVec.ofNat 32 b.toNat)) ∧
      ∀ bits, hufEnc s.cb data = .ok bits →
        (s.cfg.maxBits < bits.length → s.FailsWith .hufEncode [.bits, .bitsLen] 5#8 4#32) ∧
        (bits.length ≤ s.cfg.maxBits →
          ∃ t, exec .hufEncode s = .next t ∧ t.EndedDone ∧ Memory.HoldsExactly t.bitsBuf bits ∧
            t.bitsLen.toNat = bits.length ∧ State.KeepsAllBut [.bits, .bitsLen] s t ∧ State.KeepsTrailerFlags s t)

/-- 41_prefix_coder.md R146. -/
def Obligations.HufDecodeCommand : Prop :=
  encode .hufDecode = 0x00000022#32 ∧ ∀ s : State, s.cfg.legal = true →
    (s.cfg.maxBits < s.bitsLen.toNat → s.FailsWith .hufDecode [.out, .outLen] 5#8 4#32) ∧
    ∀ bits, s.BitsInputIs bits → bits.length ≤ s.cfg.maxBits →
      (s.cfg.maxOut < (hufDec s.cb bits).length → s.FailsWith .hufDecode [.out, .outLen] 5#8 2#32) ∧
      ((hufDec s.cb bits).length ≤ s.cfg.maxOut →
        ∃ t, exec .hufDecode s = .next t ∧ t.EndedDone ∧ Memory.HoldsExactly t.outBuf (hufDec s.cb bits) ∧
          t.outLen.toNat = (hufDec s.cb bits).length ∧ State.KeepsAllBut [.out, .outLen] s t ∧
          State.KeepsTrailerFlags s t)

/-- 41_prefix_coder.md R147. -/
def Obligations.CbLoadCommand : Prop :=
  encode .cbLoad = 0x00000023#32 ∧ ∀ s : State, s.cfg.legal = true →
    (s.cfg.maxIn < s.inLen.toNat → s.FailsWith .cbLoad [.cb, .cbCount] 5#8 1#32) ∧
    ∀ text, s.InputIs text → text.length ≤ s.cfg.maxIn →
      (∀ e, cbParse text = .error e → s.FailsWith .cbLoad [.cb, .cbCount] 1#8 e.info ∧
        (e.info = 4#32 ∨ e.info = 5#32 ∨ e.info = 6#32)) ∧
      (∀ cb, cbParse text = .ok cb →
        ∃ t, exec .cbLoad s = .next t ∧ t.EndedDone ∧ t.cb = cb ∧ t.cbCount.toNat = cb.length ∧
          State.KeepsAllBut [.cb, .cbCount] s t ∧ State.KeepsTrailerFlags s t)

/-- 42_bit_packer.md R175. -/
def Obligations.BitPackCommand : Prop :=
  encode .bitPack = 0x00000030#32 ∧ ∀ s : State, s.cfg.legal = true →
    (s.cfg.maxBits < s.bitsLen.toNat → s.FailsWith .bitPack [.out, .outLen, .pad] 5#8 4#32) ∧
    ∀ bits, s.BitsInputIs bits → bits.length ≤ s.cfg.maxBits →
      (s.cfg.maxOut < (pack bits).1.length → s.FailsWith .bitPack [.out, .outLen, .pad] 5#8 2#32) ∧
      ((pack bits).1.length ≤ s.cfg.maxOut →
        ∃ t, exec .bitPack s = .next t ∧ t.EndedDone ∧ Memory.HoldsExactly t.outBuf (pack bits).1 ∧
          t.outLen.toNat = (pack bits).1.length ∧ t.pad.toNat = (pack bits).2 ∧
          State.KeepsAllBut [.out, .outLen, .pad] s t ∧ State.KeepsTrailerFlags s t)

/-- 42_bit_packer.md R176. That BITS holds no value at or beyond the new BITS_LEN after a success is the model's choice of log 9,
DEDUCED from 92 D20. -/
def Obligations.BitUnpackCommand : Prop :=
  encode .bitUnpack = 0x00000031#32 ∧ ∀ s : State, s.cfg.legal = true →
    (s.cfg.maxIn < s.inLen.toNat → s.FailsWith .bitUnpack [.bits, .bitsLen] 5#8 1#32) ∧
    ∀ bytes, s.InputIs bytes → bytes.length ≤ s.cfg.maxIn →
      (7 < s.pad.toNat → s.FailsWith .bitUnpack [.bits, .bitsLen] 1#8 3#32) ∧
      (s.pad.toNat ≤ 7 → bytes = [] → 0 < s.pad.toNat → s.FailsWith .bitUnpack [.bits, .bitsLen] 1#8 7#32) ∧
      (s.pad.toNat ≤ 7 → (bytes ≠ [] ∨ s.pad.toNat = 0) →
        (s.cfg.maxBits < 8 * bytes.length - s.pad.toNat → s.FailsWith .bitUnpack [.bits, .bitsLen] 5#8 4#32) ∧
        (8 * bytes.length - s.pad.toNat ≤ s.cfg.maxBits →
          ∃ t, exec .bitUnpack s = .next t ∧ t.EndedDone ∧ t.bitsLen.toNat = 8 * bytes.length - s.pad.toNat ∧
            (∀ j, Memory.read t.bitsBuf j = if j < 8 * bytes.length - s.pad.toNat then
              (bytes[j / 8]?).map (fun b => b.getLsbD (7 - j % 8)) else none) ∧
            State.KeepsAllBut [.bits, .bitsLen] s t ∧ State.KeepsTrailerFlags s t))

/-- 44_container_codec.md R218, both values of USE_CTX. That BITS and MODEL hold no value at or beyond the new lengths after a success,
MODEL none at all with USE_CTX = 0, is the model's choice of log 9, DEDUCED from 92 D20. -/
def Obligations.CompressCommand : Prop :=
  encode (.compress false) = 0x00000001#32 ∧ encode (.compress true) = 0x00000101#32 ∧
  ∀ (s : State) (useCtx : Bool), s.cfg.legal = true →
    let ds : List Dest := [.out, .outLen, .tokCount, .cb, .cbCount, .bits, .bitsLen, .pad, .model, .modelLen]
    (s.cfg.maxIn < s.inLen.toNat → s.FailsWith (.compress useCtx) ds 5#8 1#32) ∧
    ∀ data, s.InputIs data → data.length ≤ s.cfg.maxIn →
      (∀ e, compressFn s.cfg data useCtx = .error e → s.FailsWith (.compress useCtx) ds e.code e.info) ∧
      (∀ r, compressFn s.cfg data useCtx = .ok r →
        ∃ t, exec (.compress useCtx) s = .next t ∧ t.EndedDone ∧
          Memory.HoldsExactly t.outBuf r.blob ∧ t.outLen.toNat = r.blob.length ∧ t.tokCount.toNat = r.toks.length ∧
          t.cb = r.cb ∧ t.cbCount.toNat = r.cb.length ∧
          Memory.HoldsExactly t.bitsBuf r.bits ∧ t.bitsLen.toNat = r.bits.length ∧ t.pad.toNat = r.pad ∧
          Memory.HoldsExactly t.modelBuf r.model ∧ t.modelLen.toNat = r.model.length ∧
          (useCtx = false → r.model = []) ∧ State.KeepsAllBut ds s t ∧ State.KeepsTrailerFlags s t)

/-- 44_container_codec.md R219. That BITS and MODEL hold no value at or beyond the new lengths after a success, MODEL none at all
without a valid trailer, is the model's choice of log 9, DEDUCED from 92 D20. -/
def Obligations.DecompressCommand : Prop :=
  encode .decompress = 0x00000002#32 ∧ ∀ s : State, s.cfg.legal = true →
    let ds : List Dest := [.out, .outLen, .tokCount, .cb, .cbCount, .bits, .bitsLen, .pad, .model, .modelLen]
    (s.cfg.maxIn < s.inLen.toNat → s.FailsWith .decompress ds 5#8 1#32) ∧
    ∀ b, s.InputIs b → b.length ≤ s.cfg.maxIn →
      (∀ e, decompressFn s.cfg b = .error e → s.FailsWith .decompress ds e.code e.info) ∧
      (∀ r, decompressFn s.cfg b = .ok r →
        ∃ t, exec .decompress s = .next t ∧ t.EndedDone ∧
          Memory.HoldsExactly t.outBuf r.out ∧ t.outLen.toNat = r.out.length ∧ t.tokCount.toNat = r.ntok ∧
          t.cb = r.cb ∧ t.cbCount.toNat = r.cb.length ∧
          Memory.HoldsExactly t.bitsBuf r.bits ∧ t.bitsLen.toNat = r.bits.length ∧ t.pad.toNat = r.pad ∧
          Memory.HoldsExactly t.modelBuf (r.model.getD []) ∧ t.modelLen.toNat = (r.model.getD []).length ∧
          t.ctxPresent = r.present ∧ t.ctxValid = r.model.isSome ∧ State.KeepsAllBut ds s t)

/-- 44_container_codec.md R216: the stages of a compression, the first error in their order, and what a compression that passes gives. -/
def Obligations.CompressStagesInOrder : Prop :=
  ∀ (c : Config) (data : List Byte) (useCtx : Bool),
    let tb := ser (lzEnc c data)
    let freq := if useCtx then (ctxFn c tb).1 else freqOf tb
    let model := if useCtx then (ctxFn c tb).2 else []
    let cb := codebookOf freq
    (c.maxTok < tb.length → compressFn c data useCtx = .error (.capacity .tok)) ∧
    (tb.length ≤ c.maxTok →
      (2 ^ c.freqBits - 1 < FreqTable.total freq → compressFn c data useCtx = .error (.capacity .freq)) ∧
      (FreqTable.total freq ≤ 2 ^ c.freqBits - 1 →
        (∀ e, hufEnc cb tb = .error e → compressFn c data useCtx = .error e) ∧
        ∀ bits, hufEnc cb tb = .ok bits →
          let blob := assemble (cbText cb) (pack bits).2 (pack bits).1 useCtx model
          (c.maxBits < bits.length → compressFn c data useCtx = .error (.capacity .bits)) ∧
          (bits.length ≤ c.maxBits →
            (useCtx = true ∧ c.maxModel < model.length → compressFn c data useCtx = .error (.capacity .model)) ∧
            ((useCtx = true → model.length ≤ c.maxModel) →
              (c.maxOut < blob.length → compressFn c data useCtx = .error (.capacity .outBuf)) ∧
              (blob.length ≤ c.maxOut →
                compressFn c data useCtx = .ok ⟨blob, lzEnc c data, cb, bits, (pack bits).2, model⟩)))))

/-- 44_container_codec.md R214, R215, R217: the stages of a decompression after the header, the first error in their order, what a
decompression that passes gives, and when a trailer is valid. -/
def Obligations.DecompressStagesInOrder : Prop :=
  (∀ (c : Config) (b : List Byte),
    (∀ e, parseHeader b = .error e → decompressFn c b = .error e) ∧
    ∀ h, parseHeader b = .ok h →
      let f := findTrailer h.payload
      (f.1 = [] ∧ 0 < h.pad → decompressFn c b = .error (.corruptContainer .padWithoutPayload)) ∧
      (f.1 ≠ [] ∨ h.pad = 0 →
        let bits := unpackBits f.1 h.pad
        let tb := hufDec h.cb bits
        (c.maxBits < bits.length → decompressFn c b = .error (.capacity .bits)) ∧
        (bits.length ≤ c.maxBits →
          (c.maxTok < tb.length → decompressFn c b = .error (.capacity .tok)) ∧
          (tb.length ≤ c.maxTok →
            (∀ e, lzDec c tb = .error e → decompressFn c b = .error e) ∧
            ∀ out ntok, lzDec c tb = .ok (out, ntok) →
              (c.maxOut < out.length → decompressFn c b = .error (.capacity .outBuf)) ∧
              (out.length ≤ c.maxOut → decompressFn c b =
                .ok ⟨out, ntok, h.cb, bits, h.pad, f.2.isSome, f.2.bind (trailerModel c)⟩))))) ∧
  (∀ (c : Config) (tail : List Byte),
    let m := (tail.getD 0 0#8).toNat + (tail.getD 1 0#8).toNat * 2 ^ 8 + (tail.getD 2 0#8).toNat * 2 ^ 16 +
      (tail.getD 3 0#8).toNat * 2 ^ 24
    trailerModel c tail =
      if 4 ≤ tail.length ∧ m ≤ tail.length - 4 ∧ m ≤ c.maxModel then some ((tail.drop 4).take m) else none)

/-- 60_exceptions.md R243, R244: whatever a command does, it writes only its destination set; when it ends with an error every item of
the set is cleared. -/
def Obligations.DestinationSets : Prop :=
  let big : List Dest := [.out, .outLen, .tokCount, .cb, .cbCount, .bits, .bitsLen, .pad, .model, .modelLen]
  (∀ s : State, State.KeepsAllBut [] s s.raiseIllegal) ∧
  ∀ (i : Instr) (ds : List Dest),
    (i, ds) ∈ [(.compress false, big), (.compress true, big), (.decompress, big),
      (.lzEncode, [.out, .outLen, .tokCount]), (.lzDecode, [.out, .outLen, .tokCount]),
      (.hufBuild, [.cb, .cbCount, .out, .outLen]), (.hufEncode, [.bits, .bitsLen]), (.hufDecode, [.out, .outLen]),
      (.cbLoad, [.cb, .cbCount]), (.bitPack, [.out, .outLen, .pad]), (.bitUnpack, [.bits, .bitsLen])] →
    ∀ s t, exec i s = .next t →
      State.KeepsAllBut ds s t ∧
      (t.err = true → t.EndedError t.errCode t.errInfo ∧ t.errCode ≠ 0#8 ∧ t.Cleared ds) ∧
      (t.err = false → t.EndedDone ∧ (i ≠ .decompress → State.KeepsTrailerFlags s t))

/-- 10_state.md R45, 70_reset_and_hazards.md R274: a command that would read a cell holding no value faults, naming such a cell, once
its length check has passed (log 8). -/
def Obligations.UnwrittenInputFaults : Prop :=
  ∀ (i : Instr) (s : State),
    (readsIn i = true → s.inLen.toNat ≤ s.cfg.maxIn → (∃ j, j < s.inLen.toNat ∧ Memory.read s.inBuf j = none) →
      ∃ a, exec i s = .fault (.unwrittenCell .inBuf a) ∧ a < s.inLen.toNat ∧ Memory.read s.inBuf a = none) ∧
    (readsIn i = false → s.bitsLen.toNat ≤ s.cfg.maxBits →
      (∃ j, j < s.bitsLen.toNat ∧ Memory.read s.bitsBuf j = none) →
      ∃ a, exec i s = .fault (.unwrittenCell .bits a) ∧ a < s.bitsLen.toNat ∧ Memory.read s.bitsBuf a = none)

/-- 70_reset_and_hazards.md R282: two states that agree on what a command reads end it alike. -/
def Obligations.CommandsAreFunctionsOfInputs : Prop :=
  ∀ (i : Instr) (s s' t : State), InputsAgree i s s' → exec i s = .next t →
    ∃ t', exec i s' = .next t' ∧ SameOutputs (destSet i) t t'

/-! ## Invariants and the whole machine -/

/-- 10_state.md R24 to R26: STATUS, ERRCODE and ERRINFO agree after every step. -/
def Obligations.StatusInvariantKept : Prop :=
  ∀ s t : State, s.StatusInv → step s = .next t → t.StatusInv

/-- 10_state.md R28, R31, R38, R40, R42: the buffers stay canonical, inside their sizes and in step with their length registers. -/
def Obligations.BufferInvariantKept : Prop :=
  ∀ s t : State, s.BufferInv → step s = .next t → t.BufferInv

/-- 00_scope.md R10, R14, 10_state.md R32, R41: the codebook table stays a codebook and CB_COUNT its length. -/
def Obligations.CodebookInvariantKept : Prop :=
  ∀ s t : State, s.CodebookInv → step s = .next t → t.CodebookInv

/-- The three invariants hold right after reset. -/
def Obligations.ResetMeetsInvariants : Prop :=
  State.reset.StatusInv ∧ State.reset.BufferInv ∧ State.reset.CodebookInv

/-- 70_reset_and_hazards.md R284: a WAIT ends. With any latched word running, whose command (if it is legal, and its length fits) finds
its own input written, it is over within two steps more than the engine's delay (log 3, log 8), and a WAIT issued while IDLE returns at
its first STATUS read. -/
def Obligations.WaitTerminates : Prop :=
  (∀ s rest, s.phase = .busy → s.host = .wait :: rest → s.InputsWritten →
    ∃ k t, k ≤ s.engineDelay + 2 ∧ core.run k s = .next t ∧ t.phase = .idle ∧ t.host = rest) ∧
  (∀ s rest, s.phase = .idle → s.host = .wait :: rest →
    ∃ t, step s = .next t ∧ t.host = rest ∧ t.reply = .word s.statusWord ∧ State.SameBlock s t)
end

