-- ==== Sys2Proof/Laws/Memory.lean ====
section
/-! SUPPORT. What the buffer operations do: reading after writing, the canonical form, and reading a range. -/

namespace Sys2Proof.Machine

variable {α : Type}

@[simp] theorem Memory.read_nil (a : Nat) : Memory.read ([] : List (Nat × α)) a = none := rfl

theorem Memory.read_cons (k a : Nat) (v : α) (m : List (Nat × α)) :
    Memory.read ((k, v) :: m) a = if k = a then some v else Memory.read m a := rfl

/-- A write is read back at its own address and leaves every other address alone. -/
theorem Memory.read_write (m : List (Nat × α)) (a b : Nat) (v : α) :
    Memory.read (Memory.write m a v) b = if a = b then some v else Memory.read m b := by
  induction m with
  | nil => simp [Memory.write, Memory.read_cons]
  | cons c m ih =>
    obtain ⟨k, w⟩ := c
    simp only [Memory.write]
    split
    · simp [Memory.read_cons]
    · split
      · subst_vars; simp only [Memory.read_cons]; split <;> rfl
      · simp only [Memory.read_cons, ih]
        by_cases hk : k = b
        · subst hk; simp_all
        · simp [hk]

/-- The addresses of a buffer after a write: the old ones and the written one. -/
theorem Memory.mem_keys_write {m : List (Nat × α)} {a k : Nat} {v : α}
    (h : k ∈ (Memory.write m a v).map Prod.fst) : k = a ∨ k ∈ m.map Prod.fst := by
  induction m with
  | nil => simpa [Memory.write] using h
  | cons c m ih =>
    obtain ⟨j, w⟩ := c
    simp only [Memory.write] at h
    split at h
    · simpa using h
    · split at h
      · subst_vars; simpa using h
      · rw [List.map_cons, List.mem_cons] at h
        obtain rfl | h := h
        · simp
        · obtain rfl | h := ih h
          · exact .inl rfl
          · exact .inr (List.mem_cons_of_mem _ h)

theorem Memory.wf_nil : Memory.wf ([] : List (Nat × α)) = true := rfl

theorem Memory.wf_cons {k : Nat} {v : α} {m : List (Nat × α)} :
    Memory.wf ((k, v) :: m) = true ↔ (∀ j ∈ m.map Prod.fst, k < j) ∧ Memory.wf m = true := by
  simp only [Memory.wf, List.map_cons, List.pairwise_cons, decide_eq_true_eq]

/-- A write keeps the canonical form. -/
theorem Memory.wf_write {m : List (Nat × α)} (h : Memory.wf m = true) (a : Nat) (v : α) :
    Memory.wf (Memory.write m a v) = true := by
  induction m with
  | nil => rfl
  | cons c m ih =>
    obtain ⟨k, w⟩ := c
    obtain ⟨hk, hm⟩ := Memory.wf_cons.1 h
    simp only [Memory.write]
    split
    · rename_i hlt
      refine Memory.wf_cons.2 ⟨fun j hj => ?_, h⟩
      rw [List.map_cons, List.mem_cons] at hj
      obtain rfl | hj := hj
      · exact hlt
      · exact hlt.trans (hk j hj)
    · split
      · subst_vars; exact Memory.wf_cons.2 ⟨hk, hm⟩
      · refine Memory.wf_cons.2 ⟨fun j hj => ?_, ih hm⟩
        obtain rfl | hj := Memory.mem_keys_write hj
        · omega
        · exact hk j hj

/-- A write inside the buffer keeps every address inside it. -/
theorem Memory.within_write {m : List (Nat × α)} {n a : Nat} (h : Memory.within m n = true) (ha : a < n) (v : α) :
    Memory.within (Memory.write m a v) n = true := by
  induction m with
  | nil => simpa [Memory.write, Memory.within] using ha
  | cons c m ih =>
    obtain ⟨k, w⟩ := c
    simp only [Memory.within, List.all_cons, Bool.and_eq_true, decide_eq_true_eq] at h ih
    simp only [Memory.write]
    split
    · simp [Memory.within, ha, h.1]; simpa using h.2
    · split
      · simp [Memory.within, ha]; simpa using h.2
      · simp only [Memory.within, List.all_cons, Bool.and_eq_true, decide_eq_true_eq]
        exact ⟨h.1, ih h.2⟩

theorem Memory.read_ofListFrom (vs : List α) (k a : Nat) :
    Memory.read (Memory.ofListFrom k vs) a = if k ≤ a then vs[a - k]? else none := by
  induction vs generalizing k with
  | nil => simp [Memory.ofListFrom]
  | cons v vs ih =>
    simp only [Memory.ofListFrom, Memory.read_cons, ih]
    by_cases h : k = a
    · subst h; simp
    · by_cases h' : k ≤ a
      · rw [if_neg h, if_pos h', if_pos (by omega), show a - k = (a - (k + 1)) + 1 by omega, List.getElem?_cons_succ]
      · rw [if_neg h, if_neg h', if_neg (by omega)]

/-- A buffer made from a list holds exactly the list. -/
theorem Memory.ofList_holdsExactly (vs : List α) : Memory.HoldsExactly (Memory.ofList vs) vs := fun a => by
  simp [Memory.ofList, Memory.read_ofListFrom]

theorem Memory.keys_ofListFrom {vs : List α} {k j : Nat} (h : j ∈ (Memory.ofListFrom k vs).map Prod.fst) :
    k ≤ j ∧ j < k + vs.length := by
  induction vs generalizing k with
  | nil => simp [Memory.ofListFrom] at h
  | cons v vs ih =>
    simp only [Memory.ofListFrom, List.map_cons, List.mem_cons] at h
    obtain rfl | h := h
    · simp
    · have := ih h
      simp only [List.length_cons]; omega

theorem Memory.wf_ofListFrom (vs : List α) (k : Nat) : Memory.wf (Memory.ofListFrom k vs) = true := by
  induction vs generalizing k with
  | nil => rfl
  | cons v vs ih =>
    exact Memory.wf_cons.2 ⟨fun j hj => by have := Memory.keys_ofListFrom hj; omega, ih _⟩

/-- A buffer made from a list is in canonical form. -/
theorem Memory.wf_ofList (vs : List α) : Memory.wf (Memory.ofList vs) = true := Memory.wf_ofListFrom vs 0

/-- A buffer made from a list lies inside any size the list fits. -/
theorem Memory.within_ofList {vs : List α} {n : Nat} (h : vs.length ≤ n) : Memory.within (Memory.ofList vs) n = true := by
  simp only [Memory.within, List.all_eq_true, decide_eq_true_eq]
  intro c hc
  have := Memory.keys_ofListFrom (List.mem_map_of_mem (f := Prod.fst) hc)
  omega

/-- Reading a range gives the list when every cell of it holds the list's element. -/
theorem Memory.readRange_eq (m : List (Nat × α)) (vs : List α) (k : Nat)
    (h : ∀ j, j < vs.length → Memory.read m (k + j) = vs[j]?) : Memory.readRange m k vs.length = .ok vs := by
  induction vs generalizing k with
  | nil => rfl
  | cons v vs ih =>
    have h0 := h 0 (by simp)
    have hr := ih (k + 1) (fun j hj => by
      have := h (j + 1) (by simpa using hj)
      rw [show k + 1 + j = k + (j + 1) by omega, this, List.getElem?_cons_succ])
    simp only [Nat.add_zero, List.getElem?_cons_zero] at h0
    simp [Memory.readRange, h0, hr]

/-- What a range read that succeeds says of the cells. -/
theorem Memory.readRange_ok {m : List (Nat × α)} {k n : Nat} {vs : List α} (h : Memory.readRange m k n = .ok vs) :
    vs.length = n ∧ ∀ j, j < n → Memory.read m (k + j) = vs[j]? := by
  induction n generalizing k vs with
  | zero => simp [Memory.readRange] at h; subst h; simp
  | succ n ih =>
    simp only [Memory.readRange] at h
    split at h
    · cases h
    · rename_i v hv
      split at h
      · rename_i ws hw
        cases h
        obtain ⟨hl, hc⟩ := ih hw
        refine ⟨by simp [hl], fun j hj => ?_⟩
        cases j with
        | zero => simpa using hv
        | succ j => rw [show k + (j + 1) = k + 1 + j by omega, hc j (by omega)]; simp
      · cases h

/-- A range read that fails names the first cell that holds no value. -/
theorem Memory.readRange_error {m : List (Nat × α)} {k n a : Nat} (h : Memory.readRange m k n = .error a) :
    k ≤ a ∧ a < k + n ∧ Memory.read m a = none := by
  induction n generalizing k with
  | zero => cases h
  | succ n ih =>
    simp only [Memory.readRange] at h
    split at h
    · cases h; exact ⟨le_rfl, by omega, ‹_›⟩
    · split at h
      · cases h
      · rename_i j hj
        cases h
        have := ih hj
        exact ⟨by omega, by omega, this.2.2⟩

end Sys2Proof.Machine
end

