-- ==== Sys2Proof/Laws/State.lean ====
section
/-! SUPPORT. One lemma per field per update of the state, each true by rfl. -/

namespace Sys2Proof.Machine

variable (s : State)

/-! ## flagsStart -/

@[simp] theorem State.flagsStart_cfg : (s.flagsStart).cfg = s.cfg := rfl
@[simp] theorem State.flagsStart_phase : (s.flagsStart).phase = .busy := rfl
@[simp] theorem State.flagsStart_curCmd : (s.flagsStart).curCmd = s.curCmd := rfl
@[simp] theorem State.flagsStart_done : (s.flagsStart).done = false := rfl
@[simp] theorem State.flagsStart_err : (s.flagsStart).err = false := rfl
@[simp] theorem State.flagsStart_ctxPresent : (s.flagsStart).ctxPresent = false := rfl
@[simp] theorem State.flagsStart_ctxValid : (s.flagsStart).ctxValid = false := rfl
@[simp] theorem State.flagsStart_errCode : (s.flagsStart).errCode = s.errCode := rfl
@[simp] theorem State.flagsStart_errInfo : (s.flagsStart).errInfo = s.errInfo := rfl
@[simp] theorem State.flagsStart_inLen : (s.flagsStart).inLen = s.inLen := rfl
@[simp] theorem State.flagsStart_outLen : (s.flagsStart).outLen = s.outLen := rfl
@[simp] theorem State.flagsStart_bitsLen : (s.flagsStart).bitsLen = s.bitsLen := rfl
@[simp] theorem State.flagsStart_pad : (s.flagsStart).pad = s.pad := rfl
@[simp] theorem State.flagsStart_modelLen : (s.flagsStart).modelLen = s.modelLen := rfl
@[simp] theorem State.flagsStart_cbCount : (s.flagsStart).cbCount = s.cbCount := rfl
@[simp] theorem State.flagsStart_tokCount : (s.flagsStart).tokCount = s.tokCount := rfl
@[simp] theorem State.flagsStart_inBuf : (s.flagsStart).inBuf = s.inBuf := rfl
@[simp] theorem State.flagsStart_outBuf : (s.flagsStart).outBuf = s.outBuf := rfl
@[simp] theorem State.flagsStart_bitsBuf : (s.flagsStart).bitsBuf = s.bitsBuf := rfl
@[simp] theorem State.flagsStart_modelBuf : (s.flagsStart).modelBuf = s.modelBuf := rfl
@[simp] theorem State.flagsStart_cb : (s.flagsStart).cb = s.cb := rfl
@[simp] theorem State.flagsStart_tok : (s.flagsStart).tok = s.tok := rfl
@[simp] theorem State.flagsStart_host : (s.flagsStart).host = s.host := rfl
@[simp] theorem State.flagsStart_delays : (s.flagsStart).delays = s.delays := rfl
@[simp] theorem State.flagsStart_engineDelay : (s.flagsStart).engineDelay = s.engineDelay := rfl
@[simp] theorem State.flagsStart_epoch : (s.flagsStart).epoch = s.epoch := rfl
@[simp] theorem State.flagsStart_reply : (s.flagsStart).reply = s.reply := rfl

/-! ## flagsDone -/

@[simp] theorem State.flagsDone_cfg : (s.flagsDone).cfg = s.cfg := rfl
@[simp] theorem State.flagsDone_phase : (s.flagsDone).phase = .idle := rfl
@[simp] theorem State.flagsDone_curCmd : (s.flagsDone).curCmd = s.curCmd := rfl
@[simp] theorem State.flagsDone_done : (s.flagsDone).done = true := rfl
@[simp] theorem State.flagsDone_err : (s.flagsDone).err = false := rfl
@[simp] theorem State.flagsDone_ctxPresent : (s.flagsDone).ctxPresent = s.ctxPresent := rfl
@[simp] theorem State.flagsDone_ctxValid : (s.flagsDone).ctxValid = s.ctxValid := rfl
@[simp] theorem State.flagsDone_errCode : (s.flagsDone).errCode = s.errCode := rfl
@[simp] theorem State.flagsDone_errInfo : (s.flagsDone).errInfo = s.errInfo := rfl
@[simp] theorem State.flagsDone_inLen : (s.flagsDone).inLen = s.inLen := rfl
@[simp] theorem State.flagsDone_outLen : (s.flagsDone).outLen = s.outLen := rfl
@[simp] theorem State.flagsDone_bitsLen : (s.flagsDone).bitsLen = s.bitsLen := rfl
@[simp] theorem State.flagsDone_pad : (s.flagsDone).pad = s.pad := rfl
@[simp] theorem State.flagsDone_modelLen : (s.flagsDone).modelLen = s.modelLen := rfl
@[simp] theorem State.flagsDone_cbCount : (s.flagsDone).cbCount = s.cbCount := rfl
@[simp] theorem State.flagsDone_tokCount : (s.flagsDone).tokCount = s.tokCount := rfl
@[simp] theorem State.flagsDone_inBuf : (s.flagsDone).inBuf = s.inBuf := rfl
@[simp] theorem State.flagsDone_outBuf : (s.flagsDone).outBuf = s.outBuf := rfl
@[simp] theorem State.flagsDone_bitsBuf : (s.flagsDone).bitsBuf = s.bitsBuf := rfl
@[simp] theorem State.flagsDone_modelBuf : (s.flagsDone).modelBuf = s.modelBuf := rfl
@[simp] theorem State.flagsDone_cb : (s.flagsDone).cb = s.cb := rfl
@[simp] theorem State.flagsDone_tok : (s.flagsDone).tok = s.tok := rfl
@[simp] theorem State.flagsDone_host : (s.flagsDone).host = s.host := rfl
@[simp] theorem State.flagsDone_delays : (s.flagsDone).delays = s.delays := rfl
@[simp] theorem State.flagsDone_engineDelay : (s.flagsDone).engineDelay = s.engineDelay := rfl
@[simp] theorem State.flagsDone_epoch : (s.flagsDone).epoch = s.epoch := rfl
@[simp] theorem State.flagsDone_reply : (s.flagsDone).reply = s.reply := rfl

/-! ## flagsError -/

@[simp] theorem State.flagsError_cfg : (s.flagsError).cfg = s.cfg := rfl
@[simp] theorem State.flagsError_phase : (s.flagsError).phase = .idle := rfl
@[simp] theorem State.flagsError_curCmd : (s.flagsError).curCmd = s.curCmd := rfl
@[simp] theorem State.flagsError_done : (s.flagsError).done = true := rfl
@[simp] theorem State.flagsError_err : (s.flagsError).err = true := rfl
@[simp] theorem State.flagsError_ctxPresent : (s.flagsError).ctxPresent = false := rfl
@[simp] theorem State.flagsError_ctxValid : (s.flagsError).ctxValid = false := rfl
@[simp] theorem State.flagsError_errCode : (s.flagsError).errCode = s.errCode := rfl
@[simp] theorem State.flagsError_errInfo : (s.flagsError).errInfo = s.errInfo := rfl
@[simp] theorem State.flagsError_inLen : (s.flagsError).inLen = s.inLen := rfl
@[simp] theorem State.flagsError_outLen : (s.flagsError).outLen = s.outLen := rfl
@[simp] theorem State.flagsError_bitsLen : (s.flagsError).bitsLen = s.bitsLen := rfl
@[simp] theorem State.flagsError_pad : (s.flagsError).pad = s.pad := rfl
@[simp] theorem State.flagsError_modelLen : (s.flagsError).modelLen = s.modelLen := rfl
@[simp] theorem State.flagsError_cbCount : (s.flagsError).cbCount = s.cbCount := rfl
@[simp] theorem State.flagsError_tokCount : (s.flagsError).tokCount = s.tokCount := rfl
@[simp] theorem State.flagsError_inBuf : (s.flagsError).inBuf = s.inBuf := rfl
@[simp] theorem State.flagsError_outBuf : (s.flagsError).outBuf = s.outBuf := rfl
@[simp] theorem State.flagsError_bitsBuf : (s.flagsError).bitsBuf = s.bitsBuf := rfl
@[simp] theorem State.flagsError_modelBuf : (s.flagsError).modelBuf = s.modelBuf := rfl
@[simp] theorem State.flagsError_cb : (s.flagsError).cb = s.cb := rfl
@[simp] theorem State.flagsError_tok : (s.flagsError).tok = s.tok := rfl
@[simp] theorem State.flagsError_host : (s.flagsError).host = s.host := rfl
@[simp] theorem State.flagsError_delays : (s.flagsError).delays = s.delays := rfl
@[simp] theorem State.flagsError_engineDelay : (s.flagsError).engineDelay = s.engineDelay := rfl
@[simp] theorem State.flagsError_epoch : (s.flagsError).epoch = s.epoch := rfl
@[simp] theorem State.flagsError_reply : (s.flagsError).reply = s.reply := rfl

/-! ## setTrailerFlags -/

@[simp] theorem State.setTrailerFlags_cfg (p v : Bool) : (s.setTrailerFlags p v).cfg = s.cfg := rfl
@[simp] theorem State.setTrailerFlags_phase (p v : Bool) : (s.setTrailerFlags p v).phase = s.phase := rfl
@[simp] theorem State.setTrailerFlags_curCmd (p v : Bool) : (s.setTrailerFlags p v).curCmd = s.curCmd := rfl
@[simp] theorem State.setTrailerFlags_done (p v : Bool) : (s.setTrailerFlags p v).done = s.done := rfl
@[simp] theorem State.setTrailerFlags_err (p v : Bool) : (s.setTrailerFlags p v).err = s.err := rfl
@[simp] theorem State.setTrailerFlags_ctxPresent (p v : Bool) : (s.setTrailerFlags p v).ctxPresent = p := rfl
@[simp] theorem State.setTrailerFlags_ctxValid (p v : Bool) : (s.setTrailerFlags p v).ctxValid = v := rfl
@[simp] theorem State.setTrailerFlags_errCode (p v : Bool) : (s.setTrailerFlags p v).errCode = s.errCode := rfl
@[simp] theorem State.setTrailerFlags_errInfo (p v : Bool) : (s.setTrailerFlags p v).errInfo = s.errInfo := rfl
@[simp] theorem State.setTrailerFlags_inLen (p v : Bool) : (s.setTrailerFlags p v).inLen = s.inLen := rfl
@[simp] theorem State.setTrailerFlags_outLen (p v : Bool) : (s.setTrailerFlags p v).outLen = s.outLen := rfl
@[simp] theorem State.setTrailerFlags_bitsLen (p v : Bool) : (s.setTrailerFlags p v).bitsLen = s.bitsLen := rfl
@[simp] theorem State.setTrailerFlags_pad (p v : Bool) : (s.setTrailerFlags p v).pad = s.pad := rfl
@[simp] theorem State.setTrailerFlags_modelLen (p v : Bool) : (s.setTrailerFlags p v).modelLen = s.modelLen := rfl
@[simp] theorem State.setTrailerFlags_cbCount (p v : Bool) : (s.setTrailerFlags p v).cbCount = s.cbCount := rfl
@[simp] theorem State.setTrailerFlags_tokCount (p v : Bool) : (s.setTrailerFlags p v).tokCount = s.tokCount := rfl
@[simp] theorem State.setTrailerFlags_inBuf (p v : Bool) : (s.setTrailerFlags p v).inBuf = s.inBuf := rfl
@[simp] theorem State.setTrailerFlags_outBuf (p v : Bool) : (s.setTrailerFlags p v).outBuf = s.outBuf := rfl
@[simp] theorem State.setTrailerFlags_bitsBuf (p v : Bool) : (s.setTrailerFlags p v).bitsBuf = s.bitsBuf := rfl
@[simp] theorem State.setTrailerFlags_modelBuf (p v : Bool) : (s.setTrailerFlags p v).modelBuf = s.modelBuf := rfl
@[simp] theorem State.setTrailerFlags_cb (p v : Bool) : (s.setTrailerFlags p v).cb = s.cb := rfl
@[simp] theorem State.setTrailerFlags_tok (p v : Bool) : (s.setTrailerFlags p v).tok = s.tok := rfl
@[simp] theorem State.setTrailerFlags_host (p v : Bool) : (s.setTrailerFlags p v).host = s.host := rfl
@[simp] theorem State.setTrailerFlags_delays (p v : Bool) : (s.setTrailerFlags p v).delays = s.delays := rfl
@[simp] theorem State.setTrailerFlags_engineDelay (p v : Bool) : (s.setTrailerFlags p v).engineDelay = s.engineDelay := rfl
@[simp] theorem State.setTrailerFlags_epoch (p v : Bool) : (s.setTrailerFlags p v).epoch = s.epoch := rfl
@[simp] theorem State.setTrailerFlags_reply (p v : Bool) : (s.setTrailerFlags p v).reply = s.reply := rfl

/-! ## putOut -/

@[simp] theorem State.putOut_cfg (b : List Byte) : (s.putOut b).cfg = s.cfg := rfl
@[simp] theorem State.putOut_phase (b : List Byte) : (s.putOut b).phase = s.phase := rfl
@[simp] theorem State.putOut_curCmd (b : List Byte) : (s.putOut b).curCmd = s.curCmd := rfl
@[simp] theorem State.putOut_done (b : List Byte) : (s.putOut b).done = s.done := rfl
@[simp] theorem State.putOut_err (b : List Byte) : (s.putOut b).err = s.err := rfl
@[simp] theorem State.putOut_ctxPresent (b : List Byte) : (s.putOut b).ctxPresent = s.ctxPresent := rfl
@[simp] theorem State.putOut_ctxValid (b : List Byte) : (s.putOut b).ctxValid = s.ctxValid := rfl
@[simp] theorem State.putOut_errCode (b : List Byte) : (s.putOut b).errCode = s.errCode := rfl
@[simp] theorem State.putOut_errInfo (b : List Byte) : (s.putOut b).errInfo = s.errInfo := rfl
@[simp] theorem State.putOut_inLen (b : List Byte) : (s.putOut b).inLen = s.inLen := rfl
@[simp] theorem State.putOut_outLen (b : List Byte) : (s.putOut b).outLen = BitVec.ofNat 32 b.length := rfl
@[simp] theorem State.putOut_bitsLen (b : List Byte) : (s.putOut b).bitsLen = s.bitsLen := rfl
@[simp] theorem State.putOut_pad (b : List Byte) : (s.putOut b).pad = s.pad := rfl
@[simp] theorem State.putOut_modelLen (b : List Byte) : (s.putOut b).modelLen = s.modelLen := rfl
@[simp] theorem State.putOut_cbCount (b : List Byte) : (s.putOut b).cbCount = s.cbCount := rfl
@[simp] theorem State.putOut_tokCount (b : List Byte) : (s.putOut b).tokCount = s.tokCount := rfl
@[simp] theorem State.putOut_inBuf (b : List Byte) : (s.putOut b).inBuf = s.inBuf := rfl
@[simp] theorem State.putOut_outBuf (b : List Byte) : (s.putOut b).outBuf = Memory.ofList b := rfl
@[simp] theorem State.putOut_bitsBuf (b : List Byte) : (s.putOut b).bitsBuf = s.bitsBuf := rfl
@[simp] theorem State.putOut_modelBuf (b : List Byte) : (s.putOut b).modelBuf = s.modelBuf := rfl
@[simp] theorem State.putOut_cb (b : List Byte) : (s.putOut b).cb = s.cb := rfl
@[simp] theorem State.putOut_tok (b : List Byte) : (s.putOut b).tok = s.tok := rfl
@[simp] theorem State.putOut_host (b : List Byte) : (s.putOut b).host = s.host := rfl
@[simp] theorem State.putOut_delays (b : List Byte) : (s.putOut b).delays = s.delays := rfl
@[simp] theorem State.putOut_engineDelay (b : List Byte) : (s.putOut b).engineDelay = s.engineDelay := rfl
@[simp] theorem State.putOut_epoch (b : List Byte) : (s.putOut b).epoch = s.epoch := rfl
@[simp] theorem State.putOut_reply (b : List Byte) : (s.putOut b).reply = s.reply := rfl

/-! ## putBits -/

@[simp] theorem State.putBits_cfg (b : List Bool) : (s.putBits b).cfg = s.cfg := rfl
@[simp] theorem State.putBits_phase (b : List Bool) : (s.putBits b).phase = s.phase := rfl
@[simp] theorem State.putBits_curCmd (b : List Bool) : (s.putBits b).curCmd = s.curCmd := rfl
@[simp] theorem State.putBits_done (b : List Bool) : (s.putBits b).done = s.done := rfl
@[simp] theorem State.putBits_err (b : List Bool) : (s.putBits b).err = s.err := rfl
@[simp] theorem State.putBits_ctxPresent (b : List Bool) : (s.putBits b).ctxPresent = s.ctxPresent := rfl
@[simp] theorem State.putBits_ctxValid (b : List Bool) : (s.putBits b).ctxValid = s.ctxValid := rfl
@[simp] theorem State.putBits_errCode (b : List Bool) : (s.putBits b).errCode = s.errCode := rfl
@[simp] theorem State.putBits_errInfo (b : List Bool) : (s.putBits b).errInfo = s.errInfo := rfl
@[simp] theorem State.putBits_inLen (b : List Bool) : (s.putBits b).inLen = s.inLen := rfl
@[simp] theorem State.putBits_outLen (b : List Bool) : (s.putBits b).outLen = s.outLen := rfl
@[simp] theorem State.putBits_bitsLen (b : List Bool) : (s.putBits b).bitsLen = BitVec.ofNat 32 b.length := rfl
@[simp] theorem State.putBits_pad (b : List Bool) : (s.putBits b).pad = s.pad := rfl
@[simp] theorem State.putBits_modelLen (b : List Bool) : (s.putBits b).modelLen = s.modelLen := rfl
@[simp] theorem State.putBits_cbCount (b : List Bool) : (s.putBits b).cbCount = s.cbCount := rfl
@[simp] theorem State.putBits_tokCount (b : List Bool) : (s.putBits b).tokCount = s.tokCount := rfl
@[simp] theorem State.putBits_inBuf (b : List Bool) : (s.putBits b).inBuf = s.inBuf := rfl
@[simp] theorem State.putBits_outBuf (b : List Bool) : (s.putBits b).outBuf = s.outBuf := rfl
@[simp] theorem State.putBits_bitsBuf (b : List Bool) : (s.putBits b).bitsBuf = Memory.ofList b := rfl
@[simp] theorem State.putBits_modelBuf (b : List Bool) : (s.putBits b).modelBuf = s.modelBuf := rfl
@[simp] theorem State.putBits_cb (b : List Bool) : (s.putBits b).cb = s.cb := rfl
@[simp] theorem State.putBits_tok (b : List Bool) : (s.putBits b).tok = s.tok := rfl
@[simp] theorem State.putBits_host (b : List Bool) : (s.putBits b).host = s.host := rfl
@[simp] theorem State.putBits_delays (b : List Bool) : (s.putBits b).delays = s.delays := rfl
@[simp] theorem State.putBits_engineDelay (b : List Bool) : (s.putBits b).engineDelay = s.engineDelay := rfl
@[simp] theorem State.putBits_epoch (b : List Bool) : (s.putBits b).epoch = s.epoch := rfl
@[simp] theorem State.putBits_reply (b : List Bool) : (s.putBits b).reply = s.reply := rfl

/-! ## putModel -/

@[simp] theorem State.putModel_cfg (b : List Byte) : (s.putModel b).cfg = s.cfg := rfl
@[simp] theorem State.putModel_phase (b : List Byte) : (s.putModel b).phase = s.phase := rfl
@[simp] theorem State.putModel_curCmd (b : List Byte) : (s.putModel b).curCmd = s.curCmd := rfl
@[simp] theorem State.putModel_done (b : List Byte) : (s.putModel b).done = s.done := rfl
@[simp] theorem State.putModel_err (b : List Byte) : (s.putModel b).err = s.err := rfl
@[simp] theorem State.putModel_ctxPresent (b : List Byte) : (s.putModel b).ctxPresent = s.ctxPresent := rfl
@[simp] theorem State.putModel_ctxValid (b : List Byte) : (s.putModel b).ctxValid = s.ctxValid := rfl
@[simp] theorem State.putModel_errCode (b : List Byte) : (s.putModel b).errCode = s.errCode := rfl
@[simp] theorem State.putModel_errInfo (b : List Byte) : (s.putModel b).errInfo = s.errInfo := rfl
@[simp] theorem State.putModel_inLen (b : List Byte) : (s.putModel b).inLen = s.inLen := rfl
@[simp] theorem State.putModel_outLen (b : List Byte) : (s.putModel b).outLen = s.outLen := rfl
@[simp] theorem State.putModel_bitsLen (b : List Byte) : (s.putModel b).bitsLen = s.bitsLen := rfl
@[simp] theorem State.putModel_pad (b : List Byte) : (s.putModel b).pad = s.pad := rfl
@[simp] theorem State.putModel_modelLen (b : List Byte) : (s.putModel b).modelLen = BitVec.ofNat 32 b.length := rfl
@[simp] theorem State.putModel_cbCount (b : List Byte) : (s.putModel b).cbCount = s.cbCount := rfl
@[simp] theorem State.putModel_tokCount (b : List Byte) : (s.putModel b).tokCount = s.tokCount := rfl
@[simp] theorem State.putModel_inBuf (b : List Byte) : (s.putModel b).inBuf = s.inBuf := rfl
@[simp] theorem State.putModel_outBuf (b : List Byte) : (s.putModel b).outBuf = s.outBuf := rfl
@[simp] theorem State.putModel_bitsBuf (b : List Byte) : (s.putModel b).bitsBuf = s.bitsBuf := rfl
@[simp] theorem State.putModel_modelBuf (b : List Byte) : (s.putModel b).modelBuf = Memory.ofList b := rfl
@[simp] theorem State.putModel_cb (b : List Byte) : (s.putModel b).cb = s.cb := rfl
@[simp] theorem State.putModel_tok (b : List Byte) : (s.putModel b).tok = s.tok := rfl
@[simp] theorem State.putModel_host (b : List Byte) : (s.putModel b).host = s.host := rfl
@[simp] theorem State.putModel_delays (b : List Byte) : (s.putModel b).delays = s.delays := rfl
@[simp] theorem State.putModel_engineDelay (b : List Byte) : (s.putModel b).engineDelay = s.engineDelay := rfl
@[simp] theorem State.putModel_epoch (b : List Byte) : (s.putModel b).epoch = s.epoch := rfl
@[simp] theorem State.putModel_reply (b : List Byte) : (s.putModel b).reply = s.reply := rfl

/-! ## putCodebook -/

@[simp] theorem State.putCodebook_cfg (c : Codebook) : (s.putCodebook c).cfg = s.cfg := rfl
@[simp] theorem State.putCodebook_phase (c : Codebook) : (s.putCodebook c).phase = s.phase := rfl
@[simp] theorem State.putCodebook_curCmd (c : Codebook) : (s.putCodebook c).curCmd = s.curCmd := rfl
@[simp] theorem State.putCodebook_done (c : Codebook) : (s.putCodebook c).done = s.done := rfl
@[simp] theorem State.putCodebook_err (c : Codebook) : (s.putCodebook c).err = s.err := rfl
@[simp] theorem State.putCodebook_ctxPresent (c : Codebook) : (s.putCodebook c).ctxPresent = s.ctxPresent := rfl
@[simp] theorem State.putCodebook_ctxValid (c : Codebook) : (s.putCodebook c).ctxValid = s.ctxValid := rfl
@[simp] theorem State.putCodebook_errCode (c : Codebook) : (s.putCodebook c).errCode = s.errCode := rfl
@[simp] theorem State.putCodebook_errInfo (c : Codebook) : (s.putCodebook c).errInfo = s.errInfo := rfl
@[simp] theorem State.putCodebook_inLen (c : Codebook) : (s.putCodebook c).inLen = s.inLen := rfl
@[simp] theorem State.putCodebook_outLen (c : Codebook) : (s.putCodebook c).outLen = s.outLen := rfl
@[simp] theorem State.putCodebook_bitsLen (c : Codebook) : (s.putCodebook c).bitsLen = s.bitsLen := rfl
@[simp] theorem State.putCodebook_pad (c : Codebook) : (s.putCodebook c).pad = s.pad := rfl
@[simp] theorem State.putCodebook_modelLen (c : Codebook) : (s.putCodebook c).modelLen = s.modelLen := rfl
@[simp] theorem State.putCodebook_cbCount (c : Codebook) : (s.putCodebook c).cbCount = BitVec.ofNat 9 c.length := rfl
@[simp] theorem State.putCodebook_tokCount (c : Codebook) : (s.putCodebook c).tokCount = s.tokCount := rfl
@[simp] theorem State.putCodebook_inBuf (c : Codebook) : (s.putCodebook c).inBuf = s.inBuf := rfl
@[simp] theorem State.putCodebook_outBuf (c : Codebook) : (s.putCodebook c).outBuf = s.outBuf := rfl
@[simp] theorem State.putCodebook_bitsBuf (c : Codebook) : (s.putCodebook c).bitsBuf = s.bitsBuf := rfl
@[simp] theorem State.putCodebook_modelBuf (c : Codebook) : (s.putCodebook c).modelBuf = s.modelBuf := rfl
@[simp] theorem State.putCodebook_cb (c : Codebook) : (s.putCodebook c).cb = c := rfl
@[simp] theorem State.putCodebook_tok (c : Codebook) : (s.putCodebook c).tok = s.tok := rfl
@[simp] theorem State.putCodebook_host (c : Codebook) : (s.putCodebook c).host = s.host := rfl
@[simp] theorem State.putCodebook_delays (c : Codebook) : (s.putCodebook c).delays = s.delays := rfl
@[simp] theorem State.putCodebook_engineDelay (c : Codebook) : (s.putCodebook c).engineDelay = s.engineDelay := rfl
@[simp] theorem State.putCodebook_epoch (c : Codebook) : (s.putCodebook c).epoch = s.epoch := rfl
@[simp] theorem State.putCodebook_reply (c : Codebook) : (s.putCodebook c).reply = s.reply := rfl

/-! ## putTokCount -/

@[simp] theorem State.putTokCount_cfg (n : Nat) : (s.putTokCount n).cfg = s.cfg := rfl
@[simp] theorem State.putTokCount_phase (n : Nat) : (s.putTokCount n).phase = s.phase := rfl
@[simp] theorem State.putTokCount_curCmd (n : Nat) : (s.putTokCount n).curCmd = s.curCmd := rfl
@[simp] theorem State.putTokCount_done (n : Nat) : (s.putTokCount n).done = s.done := rfl
@[simp] theorem State.putTokCount_err (n : Nat) : (s.putTokCount n).err = s.err := rfl
@[simp] theorem State.putTokCount_ctxPresent (n : Nat) : (s.putTokCount n).ctxPresent = s.ctxPresent := rfl
@[simp] theorem State.putTokCount_ctxValid (n : Nat) : (s.putTokCount n).ctxValid = s.ctxValid := rfl
@[simp] theorem State.putTokCount_errCode (n : Nat) : (s.putTokCount n).errCode = s.errCode := rfl
@[simp] theorem State.putTokCount_errInfo (n : Nat) : (s.putTokCount n).errInfo = s.errInfo := rfl
@[simp] theorem State.putTokCount_inLen (n : Nat) : (s.putTokCount n).inLen = s.inLen := rfl
@[simp] theorem State.putTokCount_outLen (n : Nat) : (s.putTokCount n).outLen = s.outLen := rfl
@[simp] theorem State.putTokCount_bitsLen (n : Nat) : (s.putTokCount n).bitsLen = s.bitsLen := rfl
@[simp] theorem State.putTokCount_pad (n : Nat) : (s.putTokCount n).pad = s.pad := rfl
@[simp] theorem State.putTokCount_modelLen (n : Nat) : (s.putTokCount n).modelLen = s.modelLen := rfl
@[simp] theorem State.putTokCount_cbCount (n : Nat) : (s.putTokCount n).cbCount = s.cbCount := rfl
@[simp] theorem State.putTokCount_tokCount (n : Nat) : (s.putTokCount n).tokCount = BitVec.ofNat 32 n := rfl
@[simp] theorem State.putTokCount_inBuf (n : Nat) : (s.putTokCount n).inBuf = s.inBuf := rfl
@[simp] theorem State.putTokCount_outBuf (n : Nat) : (s.putTokCount n).outBuf = s.outBuf := rfl
@[simp] theorem State.putTokCount_bitsBuf (n : Nat) : (s.putTokCount n).bitsBuf = s.bitsBuf := rfl
@[simp] theorem State.putTokCount_modelBuf (n : Nat) : (s.putTokCount n).modelBuf = s.modelBuf := rfl
@[simp] theorem State.putTokCount_cb (n : Nat) : (s.putTokCount n).cb = s.cb := rfl
@[simp] theorem State.putTokCount_tok (n : Nat) : (s.putTokCount n).tok = s.tok := rfl
@[simp] theorem State.putTokCount_host (n : Nat) : (s.putTokCount n).host = s.host := rfl
@[simp] theorem State.putTokCount_delays (n : Nat) : (s.putTokCount n).delays = s.delays := rfl
@[simp] theorem State.putTokCount_engineDelay (n : Nat) : (s.putTokCount n).engineDelay = s.engineDelay := rfl
@[simp] theorem State.putTokCount_epoch (n : Nat) : (s.putTokCount n).epoch = s.epoch := rfl
@[simp] theorem State.putTokCount_reply (n : Nat) : (s.putTokCount n).reply = s.reply := rfl

/-! ## putPad -/

@[simp] theorem State.putPad_cfg (n : Nat) : (s.putPad n).cfg = s.cfg := rfl
@[simp] theorem State.putPad_phase (n : Nat) : (s.putPad n).phase = s.phase := rfl
@[simp] theorem State.putPad_curCmd (n : Nat) : (s.putPad n).curCmd = s.curCmd := rfl
@[simp] theorem State.putPad_done (n : Nat) : (s.putPad n).done = s.done := rfl
@[simp] theorem State.putPad_err (n : Nat) : (s.putPad n).err = s.err := rfl
@[simp] theorem State.putPad_ctxPresent (n : Nat) : (s.putPad n).ctxPresent = s.ctxPresent := rfl
@[simp] theorem State.putPad_ctxValid (n : Nat) : (s.putPad n).ctxValid = s.ctxValid := rfl
@[simp] theorem State.putPad_errCode (n : Nat) : (s.putPad n).errCode = s.errCode := rfl
@[simp] theorem State.putPad_errInfo (n : Nat) : (s.putPad n).errInfo = s.errInfo := rfl
@[simp] theorem State.putPad_inLen (n : Nat) : (s.putPad n).inLen = s.inLen := rfl
@[simp] theorem State.putPad_outLen (n : Nat) : (s.putPad n).outLen = s.outLen := rfl
@[simp] theorem State.putPad_bitsLen (n : Nat) : (s.putPad n).bitsLen = s.bitsLen := rfl
@[simp] theorem State.putPad_pad (n : Nat) : (s.putPad n).pad = BitVec.ofNat 8 n := rfl
@[simp] theorem State.putPad_modelLen (n : Nat) : (s.putPad n).modelLen = s.modelLen := rfl
@[simp] theorem State.putPad_cbCount (n : Nat) : (s.putPad n).cbCount = s.cbCount := rfl
@[simp] theorem State.putPad_tokCount (n : Nat) : (s.putPad n).tokCount = s.tokCount := rfl
@[simp] theorem State.putPad_inBuf (n : Nat) : (s.putPad n).inBuf = s.inBuf := rfl
@[simp] theorem State.putPad_outBuf (n : Nat) : (s.putPad n).outBuf = s.outBuf := rfl
@[simp] theorem State.putPad_bitsBuf (n : Nat) : (s.putPad n).bitsBuf = s.bitsBuf := rfl
@[simp] theorem State.putPad_modelBuf (n : Nat) : (s.putPad n).modelBuf = s.modelBuf := rfl
@[simp] theorem State.putPad_cb (n : Nat) : (s.putPad n).cb = s.cb := rfl
@[simp] theorem State.putPad_tok (n : Nat) : (s.putPad n).tok = s.tok := rfl
@[simp] theorem State.putPad_host (n : Nat) : (s.putPad n).host = s.host := rfl
@[simp] theorem State.putPad_delays (n : Nat) : (s.putPad n).delays = s.delays := rfl
@[simp] theorem State.putPad_engineDelay (n : Nat) : (s.putPad n).engineDelay = s.engineDelay := rfl
@[simp] theorem State.putPad_epoch (n : Nat) : (s.putPad n).epoch = s.epoch := rfl
@[simp] theorem State.putPad_reply (n : Nat) : (s.putPad n).reply = s.reply := rfl

/-! ## startCommand -/

@[simp] theorem State.startCommand_cfg (v : Word) : (s.startCommand v).cfg = s.cfg := rfl
@[simp] theorem State.startCommand_phase (v : Word) : (s.startCommand v).phase = .busy := rfl
@[simp] theorem State.startCommand_curCmd (v : Word) : (s.startCommand v).curCmd = v := rfl
@[simp] theorem State.startCommand_done (v : Word) : (s.startCommand v).done = false := rfl
@[simp] theorem State.startCommand_err (v : Word) : (s.startCommand v).err = false := rfl
@[simp] theorem State.startCommand_ctxPresent (v : Word) : (s.startCommand v).ctxPresent = false := rfl
@[simp] theorem State.startCommand_ctxValid (v : Word) : (s.startCommand v).ctxValid = false := rfl
@[simp] theorem State.startCommand_errCode (v : Word) : (s.startCommand v).errCode = 0#8 := rfl
@[simp] theorem State.startCommand_errInfo (v : Word) : (s.startCommand v).errInfo = 0#32 := rfl
@[simp] theorem State.startCommand_inLen (v : Word) : (s.startCommand v).inLen = s.inLen := rfl
@[simp] theorem State.startCommand_outLen (v : Word) : (s.startCommand v).outLen = s.outLen := rfl
@[simp] theorem State.startCommand_bitsLen (v : Word) : (s.startCommand v).bitsLen = s.bitsLen := rfl
@[simp] theorem State.startCommand_pad (v : Word) : (s.startCommand v).pad = s.pad := rfl
@[simp] theorem State.startCommand_modelLen (v : Word) : (s.startCommand v).modelLen = s.modelLen := rfl
@[simp] theorem State.startCommand_cbCount (v : Word) : (s.startCommand v).cbCount = s.cbCount := rfl
@[simp] theorem State.startCommand_tokCount (v : Word) : (s.startCommand v).tokCount = s.tokCount := rfl
@[simp] theorem State.startCommand_inBuf (v : Word) : (s.startCommand v).inBuf = s.inBuf := rfl
@[simp] theorem State.startCommand_outBuf (v : Word) : (s.startCommand v).outBuf = s.outBuf := rfl
@[simp] theorem State.startCommand_bitsBuf (v : Word) : (s.startCommand v).bitsBuf = s.bitsBuf := rfl
@[simp] theorem State.startCommand_modelBuf (v : Word) : (s.startCommand v).modelBuf = s.modelBuf := rfl
@[simp] theorem State.startCommand_cb (v : Word) : (s.startCommand v).cb = s.cb := rfl
@[simp] theorem State.startCommand_tok (v : Word) : (s.startCommand v).tok = s.tok := rfl
@[simp] theorem State.startCommand_host (v : Word) : (s.startCommand v).host = s.host := rfl
@[simp] theorem State.startCommand_delays (v : Word) : (s.startCommand v).delays = s.delays.tail := rfl
@[simp] theorem State.startCommand_engineDelay (v : Word) : (s.startCommand v).engineDelay = s.nextDelay := rfl
@[simp] theorem State.startCommand_epoch (v : Word) : (s.startCommand v).epoch = s.epoch := rfl
@[simp] theorem State.startCommand_reply (v : Word) : (s.startCommand v).reply = s.reply := rfl

/-! ## endDone -/

@[simp] theorem State.endDone_cfg : (s.endDone).cfg = s.cfg := rfl
@[simp] theorem State.endDone_phase : (s.endDone).phase = .idle := rfl
@[simp] theorem State.endDone_curCmd : (s.endDone).curCmd = s.curCmd := rfl
@[simp] theorem State.endDone_done : (s.endDone).done = true := rfl
@[simp] theorem State.endDone_err : (s.endDone).err = false := rfl
@[simp] theorem State.endDone_ctxPresent : (s.endDone).ctxPresent = s.ctxPresent := rfl
@[simp] theorem State.endDone_ctxValid : (s.endDone).ctxValid = s.ctxValid := rfl
@[simp] theorem State.endDone_errCode : (s.endDone).errCode = 0#8 := rfl
@[simp] theorem State.endDone_errInfo : (s.endDone).errInfo = 0#32 := rfl
@[simp] theorem State.endDone_inLen : (s.endDone).inLen = s.inLen := rfl
@[simp] theorem State.endDone_outLen : (s.endDone).outLen = s.outLen := rfl
@[simp] theorem State.endDone_bitsLen : (s.endDone).bitsLen = s.bitsLen := rfl
@[simp] theorem State.endDone_pad : (s.endDone).pad = s.pad := rfl
@[simp] theorem State.endDone_modelLen : (s.endDone).modelLen = s.modelLen := rfl
@[simp] theorem State.endDone_cbCount : (s.endDone).cbCount = s.cbCount := rfl
@[simp] theorem State.endDone_tokCount : (s.endDone).tokCount = s.tokCount := rfl
@[simp] theorem State.endDone_inBuf : (s.endDone).inBuf = s.inBuf := rfl
@[simp] theorem State.endDone_outBuf : (s.endDone).outBuf = s.outBuf := rfl
@[simp] theorem State.endDone_bitsBuf : (s.endDone).bitsBuf = s.bitsBuf := rfl
@[simp] theorem State.endDone_modelBuf : (s.endDone).modelBuf = s.modelBuf := rfl
@[simp] theorem State.endDone_cb : (s.endDone).cb = s.cb := rfl
@[simp] theorem State.endDone_tok : (s.endDone).tok = [] := rfl
@[simp] theorem State.endDone_host : (s.endDone).host = s.host := rfl
@[simp] theorem State.endDone_delays : (s.endDone).delays = s.delays := rfl
@[simp] theorem State.endDone_engineDelay : (s.endDone).engineDelay = s.engineDelay := rfl
@[simp] theorem State.endDone_epoch : (s.endDone).epoch = s.epoch + 1 := rfl
@[simp] theorem State.endDone_reply : (s.endDone).reply = s.reply := rfl

/-! ## afterReset -/

@[simp] theorem State.afterReset_cfg : (s.afterReset).cfg = s.cfg := rfl
@[simp] theorem State.afterReset_phase : (s.afterReset).phase = State.reset.phase := rfl
@[simp] theorem State.afterReset_curCmd : (s.afterReset).curCmd = State.reset.curCmd := rfl
@[simp] theorem State.afterReset_done : (s.afterReset).done = State.reset.done := rfl
@[simp] theorem State.afterReset_err : (s.afterReset).err = State.reset.err := rfl
@[simp] theorem State.afterReset_ctxPresent : (s.afterReset).ctxPresent = State.reset.ctxPresent := rfl
@[simp] theorem State.afterReset_ctxValid : (s.afterReset).ctxValid = State.reset.ctxValid := rfl
@[simp] theorem State.afterReset_errCode : (s.afterReset).errCode = State.reset.errCode := rfl
@[simp] theorem State.afterReset_errInfo : (s.afterReset).errInfo = State.reset.errInfo := rfl
@[simp] theorem State.afterReset_inLen : (s.afterReset).inLen = State.reset.inLen := rfl
@[simp] theorem State.afterReset_outLen : (s.afterReset).outLen = State.reset.outLen := rfl
@[simp] theorem State.afterReset_bitsLen : (s.afterReset).bitsLen = State.reset.bitsLen := rfl
@[simp] theorem State.afterReset_pad : (s.afterReset).pad = State.reset.pad := rfl
@[simp] theorem State.afterReset_modelLen : (s.afterReset).modelLen = State.reset.modelLen := rfl
@[simp] theorem State.afterReset_cbCount : (s.afterReset).cbCount = State.reset.cbCount := rfl
@[simp] theorem State.afterReset_tokCount : (s.afterReset).tokCount = State.reset.tokCount := rfl
@[simp] theorem State.afterReset_inBuf : (s.afterReset).inBuf = State.reset.inBuf := rfl
@[simp] theorem State.afterReset_outBuf : (s.afterReset).outBuf = State.reset.outBuf := rfl
@[simp] theorem State.afterReset_bitsBuf : (s.afterReset).bitsBuf = State.reset.bitsBuf := rfl
@[simp] theorem State.afterReset_modelBuf : (s.afterReset).modelBuf = State.reset.modelBuf := rfl
@[simp] theorem State.afterReset_cb : (s.afterReset).cb = State.reset.cb := rfl
@[simp] theorem State.afterReset_tok : (s.afterReset).tok = State.reset.tok := rfl
@[simp] theorem State.afterReset_host : (s.afterReset).host = s.host := rfl
@[simp] theorem State.afterReset_delays : (s.afterReset).delays = s.delays := rfl
@[simp] theorem State.afterReset_engineDelay : (s.afterReset).engineDelay = State.reset.engineDelay := rfl
@[simp] theorem State.afterReset_epoch : (s.afterReset).epoch = s.epoch + 1 := rfl
@[simp] theorem State.afterReset_reply : (s.afterReset).reply = State.reset.reply := rfl

/-! ## answerRead -/

@[simp] theorem State.answerRead_cfg (r : HostReply) : (s.answerRead r).cfg = s.cfg := rfl
@[simp] theorem State.answerRead_phase (r : HostReply) : (s.answerRead r).phase = s.phase := rfl
@[simp] theorem State.answerRead_curCmd (r : HostReply) : (s.answerRead r).curCmd = s.curCmd := rfl
@[simp] theorem State.answerRead_done (r : HostReply) : (s.answerRead r).done = s.done := rfl
@[simp] theorem State.answerRead_err (r : HostReply) : (s.answerRead r).err = s.err := rfl
@[simp] theorem State.answerRead_ctxPresent (r : HostReply) : (s.answerRead r).ctxPresent = s.ctxPresent := rfl
@[simp] theorem State.answerRead_ctxValid (r : HostReply) : (s.answerRead r).ctxValid = s.ctxValid := rfl
@[simp] theorem State.answerRead_errCode (r : HostReply) : (s.answerRead r).errCode = s.errCode := rfl
@[simp] theorem State.answerRead_errInfo (r : HostReply) : (s.answerRead r).errInfo = s.errInfo := rfl
@[simp] theorem State.answerRead_inLen (r : HostReply) : (s.answerRead r).inLen = s.inLen := rfl
@[simp] theorem State.answerRead_outLen (r : HostReply) : (s.answerRead r).outLen = s.outLen := rfl
@[simp] theorem State.answerRead_bitsLen (r : HostReply) : (s.answerRead r).bitsLen = s.bitsLen := rfl
@[simp] theorem State.answerRead_pad (r : HostReply) : (s.answerRead r).pad = s.pad := rfl
@[simp] theorem State.answerRead_modelLen (r : HostReply) : (s.answerRead r).modelLen = s.modelLen := rfl
@[simp] theorem State.answerRead_cbCount (r : HostReply) : (s.answerRead r).cbCount = s.cbCount := rfl
@[simp] theorem State.answerRead_tokCount (r : HostReply) : (s.answerRead r).tokCount = s.tokCount := rfl
@[simp] theorem State.answerRead_inBuf (r : HostReply) : (s.answerRead r).inBuf = s.inBuf := rfl
@[simp] theorem State.answerRead_outBuf (r : HostReply) : (s.answerRead r).outBuf = s.outBuf := rfl
@[simp] theorem State.answerRead_bitsBuf (r : HostReply) : (s.answerRead r).bitsBuf = s.bitsBuf := rfl
@[simp] theorem State.answerRead_modelBuf (r : HostReply) : (s.answerRead r).modelBuf = s.modelBuf := rfl
@[simp] theorem State.answerRead_cb (r : HostReply) : (s.answerRead r).cb = s.cb := rfl
@[simp] theorem State.answerRead_tok (r : HostReply) : (s.answerRead r).tok = s.tok := rfl
@[simp] theorem State.answerRead_host (r : HostReply) : (s.answerRead r).host = s.host := rfl
@[simp] theorem State.answerRead_delays (r : HostReply) : (s.answerRead r).delays = s.delays := rfl
@[simp] theorem State.answerRead_engineDelay (r : HostReply) : (s.answerRead r).engineDelay = s.engineDelay := rfl
@[simp] theorem State.answerRead_epoch (r : HostReply) : (s.answerRead r).epoch = if s.busy then s.epoch + 1 else s.epoch := rfl
@[simp] theorem State.answerRead_reply (r : HostReply) : (s.answerRead r).reply = r := rfl

/-! ## answerWrite -/

@[simp] theorem State.answerWrite_cfg : (s.answerWrite).cfg = s.cfg := rfl
@[simp] theorem State.answerWrite_phase : (s.answerWrite).phase = s.phase := rfl
@[simp] theorem State.answerWrite_curCmd : (s.answerWrite).curCmd = s.curCmd := rfl
@[simp] theorem State.answerWrite_done : (s.answerWrite).done = s.done := rfl
@[simp] theorem State.answerWrite_err : (s.answerWrite).err = s.err := rfl
@[simp] theorem State.answerWrite_ctxPresent : (s.answerWrite).ctxPresent = s.ctxPresent := rfl
@[simp] theorem State.answerWrite_ctxValid : (s.answerWrite).ctxValid = s.ctxValid := rfl
@[simp] theorem State.answerWrite_errCode : (s.answerWrite).errCode = s.errCode := rfl
@[simp] theorem State.answerWrite_errInfo : (s.answerWrite).errInfo = s.errInfo := rfl
@[simp] theorem State.answerWrite_inLen : (s.answerWrite).inLen = s.inLen := rfl
@[simp] theorem State.answerWrite_outLen : (s.answerWrite).outLen = s.outLen := rfl
@[simp] theorem State.answerWrite_bitsLen : (s.answerWrite).bitsLen = s.bitsLen := rfl
@[simp] theorem State.answerWrite_pad : (s.answerWrite).pad = s.pad := rfl
@[simp] theorem State.answerWrite_modelLen : (s.answerWrite).modelLen = s.modelLen := rfl
@[simp] theorem State.answerWrite_cbCount : (s.answerWrite).cbCount = s.cbCount := rfl
@[simp] theorem State.answerWrite_tokCount : (s.answerWrite).tokCount = s.tokCount := rfl
@[simp] theorem State.answerWrite_inBuf : (s.answerWrite).inBuf = s.inBuf := rfl
@[simp] theorem State.answerWrite_outBuf : (s.answerWrite).outBuf = s.outBuf := rfl
@[simp] theorem State.answerWrite_bitsBuf : (s.answerWrite).bitsBuf = s.bitsBuf := rfl
@[simp] theorem State.answerWrite_modelBuf : (s.answerWrite).modelBuf = s.modelBuf := rfl
@[simp] theorem State.answerWrite_cb : (s.answerWrite).cb = s.cb := rfl
@[simp] theorem State.answerWrite_tok : (s.answerWrite).tok = s.tok := rfl
@[simp] theorem State.answerWrite_host : (s.answerWrite).host = s.host := rfl
@[simp] theorem State.answerWrite_delays : (s.answerWrite).delays = s.delays := rfl
@[simp] theorem State.answerWrite_engineDelay : (s.answerWrite).engineDelay = s.engineDelay := rfl
@[simp] theorem State.answerWrite_epoch : (s.answerWrite).epoch = s.epoch + 1 := rfl
@[simp] theorem State.answerWrite_reply : (s.answerWrite).reply = .ack := rfl

/-! ## takeHostOp -/

@[simp] theorem State.takeHostOp_cfg (l : List HostOp) : (s.takeHostOp l).cfg = s.cfg := rfl
@[simp] theorem State.takeHostOp_phase (l : List HostOp) : (s.takeHostOp l).phase = s.phase := rfl
@[simp] theorem State.takeHostOp_curCmd (l : List HostOp) : (s.takeHostOp l).curCmd = s.curCmd := rfl
@[simp] theorem State.takeHostOp_done (l : List HostOp) : (s.takeHostOp l).done = s.done := rfl
@[simp] theorem State.takeHostOp_err (l : List HostOp) : (s.takeHostOp l).err = s.err := rfl
@[simp] theorem State.takeHostOp_ctxPresent (l : List HostOp) : (s.takeHostOp l).ctxPresent = s.ctxPresent := rfl
@[simp] theorem State.takeHostOp_ctxValid (l : List HostOp) : (s.takeHostOp l).ctxValid = s.ctxValid := rfl
@[simp] theorem State.takeHostOp_errCode (l : List HostOp) : (s.takeHostOp l).errCode = s.errCode := rfl
@[simp] theorem State.takeHostOp_errInfo (l : List HostOp) : (s.takeHostOp l).errInfo = s.errInfo := rfl
@[simp] theorem State.takeHostOp_inLen (l : List HostOp) : (s.takeHostOp l).inLen = s.inLen := rfl
@[simp] theorem State.takeHostOp_outLen (l : List HostOp) : (s.takeHostOp l).outLen = s.outLen := rfl
@[simp] theorem State.takeHostOp_bitsLen (l : List HostOp) : (s.takeHostOp l).bitsLen = s.bitsLen := rfl
@[simp] theorem State.takeHostOp_pad (l : List HostOp) : (s.takeHostOp l).pad = s.pad := rfl
@[simp] theorem State.takeHostOp_modelLen (l : List HostOp) : (s.takeHostOp l).modelLen = s.modelLen := rfl
@[simp] theorem State.takeHostOp_cbCount (l : List HostOp) : (s.takeHostOp l).cbCount = s.cbCount := rfl
@[simp] theorem State.takeHostOp_tokCount (l : List HostOp) : (s.takeHostOp l).tokCount = s.tokCount := rfl
@[simp] theorem State.takeHostOp_inBuf (l : List HostOp) : (s.takeHostOp l).inBuf = s.inBuf := rfl
@[simp] theorem State.takeHostOp_outBuf (l : List HostOp) : (s.takeHostOp l).outBuf = s.outBuf := rfl
@[simp] theorem State.takeHostOp_bitsBuf (l : List HostOp) : (s.takeHostOp l).bitsBuf = s.bitsBuf := rfl
@[simp] theorem State.takeHostOp_modelBuf (l : List HostOp) : (s.takeHostOp l).modelBuf = s.modelBuf := rfl
@[simp] theorem State.takeHostOp_cb (l : List HostOp) : (s.takeHostOp l).cb = s.cb := rfl
@[simp] theorem State.takeHostOp_tok (l : List HostOp) : (s.takeHostOp l).tok = s.tok := rfl
@[simp] theorem State.takeHostOp_host (l : List HostOp) : (s.takeHostOp l).host = l := rfl
@[simp] theorem State.takeHostOp_delays (l : List HostOp) : (s.takeHostOp l).delays = s.delays := rfl
@[simp] theorem State.takeHostOp_engineDelay (l : List HostOp) : (s.takeHostOp l).engineDelay = s.engineDelay - 1 := rfl
@[simp] theorem State.takeHostOp_epoch (l : List HostOp) : (s.takeHostOp l).epoch = s.epoch := rfl
@[simp] theorem State.takeHostOp_reply (l : List HostOp) : (s.takeHostOp l).reply = s.reply := rfl

end Sys2Proof.Machine
end

