-- ==== Sys2Proof/Laws/Command.lean ====
section
/-! SUPPORT. Once for each shared operation, everything it can do: the operand reads, the run of a command's body, the error that
ends a command, and for each command what a body that succeeds gives. -/

namespace Sys2Proof.Machine

/-! ## Checks -/

theorem check_eq_ok {ok : Bool} {e : CmdError} {u : Unit} : check ok e = .ok u ↔ ok = true := by
  cases ok <;> simp [check]

theorem check_eq_error {ok : Bool} {e f : CmdError} : check ok e = .error f ↔ ok = false ∧ e = f := by
  cases ok <;> simp [check]

/-- A check that passes goes on. -/
theorem check_bind_true {α : Type} {e : CmdError} (k : Unit → Except CmdError α) : (check true e >>= k) = k () := rfl

/-- A check that fails raises its error. -/
theorem check_bind_false {α : Type} {e : CmdError} (k : Unit → Except CmdError α) : (check false e >>= k) = .error e := rfl

/-- A check and what follows it succeed when both do. -/
theorem check_bind_ok {α : Type} {ok : Bool} {e : CmdError} {k : Unit → Except CmdError α} {r : α} :
    (check ok e >>= k) = .ok r ↔ ok = true ∧ k () = .ok r := by
  cases ok <;> simp [check, bind, Except.bind]

/-- A computation and what follows it succeed when both do. -/
theorem bind_ok {α β : Type} {x : Except CmdError α} {k : α → Except CmdError β} {r : β} :
    (x >>= k) = .ok r ↔ ∃ a, x = .ok a ∧ k a = .ok r := by
  cases x <;> simp [bind, Except.bind]

/-! ## Operands -/

/-- The input of a command whose IN_LEN fits and whose cells hold `data`. -/
theorem State.inOperand_eq {s : State} {data : List Byte} (h : s.InputIs data) (hl : data.length ≤ s.cfg.maxIn) :
    s.inOperand = .data data := by
  have hr := Memory.readRange_eq s.inBuf data 0 (fun j hj => by simpa using h.2 j hj)
  simp [State.inOperand, h.1, hr, Nat.not_lt.2 hl]

/-- The bit input of a command whose BITS_LEN fits and whose cells hold `bits`. -/
theorem State.bitsOperand_eq {s : State} {bits : List Bool} (h : s.BitsInputIs bits) (hl : bits.length ≤ s.cfg.maxBits) :
    s.bitsOperand = .data bits := by
  have hr := Memory.readRange_eq s.bitsBuf bits 0 (fun j hj => by simpa using h.2 j hj)
  simp [State.bitsOperand, h.1, hr, Nat.not_lt.2 hl]

/-- What an input read that succeeds says. -/
theorem State.inOperand_data {s : State} {data : List Byte} (h : s.inOperand = .data data) :
    s.InputIs data ∧ data.length ≤ s.cfg.maxIn := by
  unfold State.inOperand at h
  split at h
  · cases h
  · split at h
    · cases h
      have hr := Memory.readRange_ok ‹_›
      exact ⟨⟨hr.1.symm, fun j hj => by simpa using hr.2 j (hr.1 ▸ hj)⟩, by omega⟩
    · cases h

/-- What a bit input read that succeeds says. -/
theorem State.bitsOperand_data {s : State} {bits : List Bool} (h : s.bitsOperand = .data bits) :
    s.BitsInputIs bits ∧ bits.length ≤ s.cfg.maxBits := by
  unfold State.bitsOperand at h
  split at h
  · cases h
  · split at h
    · cases h
      have hr := Memory.readRange_ok ‹_›
      exact ⟨⟨hr.1.symm, fun j hj => by simpa using hr.2 j (hr.1 ▸ hj)⟩, by omega⟩
    · cases h

/-! ## Running a command -/

/-- A command answers a next state in one of two ways: its body succeeded, or an error ended it. -/
theorem runCommand_next {α : Type} {ds : List Dest} {input : Operand α} {s t : State}
    {body : List α → Except CmdError State} (h : runCommand ds input s body = .next t) :
    (∃ vs u, input = .data vs ∧ body vs = .ok u ∧ t = u.endDone) ∨ (∃ e, t = s.raiseError ds e) := by
  unfold runCommand at h
  split at h
  · cases h; exact .inr ⟨_, rfl⟩
  · cases h
  · split at h <;> cases h
    · exact .inl ⟨_, _, rfl, ‹_›, rfl⟩
    · exact .inr ⟨_, rfl⟩

/-- A command whose body succeeds on its input ends without error. -/
theorem runCommand_done {α : Type} {ds : List Dest} {input : Operand α} {s u : State}
    {body : List α → Except CmdError State} {vs : List α} (hi : input = .data vs) (hb : body vs = .ok u) :
    runCommand ds input s body = .next u.endDone := by
  simp [runCommand, hi, hb]

/-- A command whose body raises an error on its input ends with it. -/
theorem runCommand_error {α : Type} {ds : List Dest} {input : Operand α} {s : State} {e : CmdError}
    {body : List α → Except CmdError State} {vs : List α} (hi : input = .data vs) (hb : body vs = .error e) :
    runCommand ds input s body = .next (s.raiseError ds e) := by
  simp [runCommand, hi, hb]

/-! ## An error -/

/-- A property that clearing one item keeps is kept by clearing a set. -/
theorem foldl_clearDest_keeps {β : Type} (f : State → β) (h : ∀ s d, f (State.clearDest s d) = f s) (ds : List Dest)
    (s : State) : f (ds.foldl State.clearDest s) = f s := by
  induction ds generalizing s with
  | nil => rfl
  | cons d ds ih => rw [List.foldl_cons, ih, h]

/-- An item that its own place in the set clears, and no other place touches. -/
theorem foldl_clearDest_clears {β : Type} (f : State → β) (d : Dest) (z : β)
    (hd : ∀ s, f (State.clearDest s d) = z) (h : ∀ s d', d' ≠ d → f (State.clearDest s d') = f s) (ds : List Dest)
    (s : State) : f (ds.foldl State.clearDest s) = if d ∈ ds then z else f s := by
  induction ds generalizing s with
  | nil => rfl
  | cons d' ds ih =>
    rw [List.foldl_cons, ih]
    by_cases hm : d ∈ ds
    · simp [hm]
    · by_cases hc : d' = d
      · subst hc; simp [hm, hd]
      · simp [hm, h s d' hc, Ne.symm hc]

section
variable (s : State) (ds : List Dest) (e : CmdError)

@[simp] theorem State.raiseError_phase : (s.raiseError ds e).phase = .idle := rfl
@[simp] theorem State.raiseError_done : (s.raiseError ds e).done = true := rfl
@[simp] theorem State.raiseError_err : (s.raiseError ds e).err = true := rfl
@[simp] theorem State.raiseError_ctxPresent : (s.raiseError ds e).ctxPresent = false := rfl
@[simp] theorem State.raiseError_ctxValid : (s.raiseError ds e).ctxValid = false := rfl
@[simp] theorem State.raiseError_errCode : (s.raiseError ds e).errCode = e.code := rfl
@[simp] theorem State.raiseError_errInfo : (s.raiseError ds e).errInfo = e.info := rfl
@[simp] theorem State.raiseError_tok : (s.raiseError ds e).tok = [] := rfl

@[simp] theorem State.raiseError_cfg : (s.raiseError ds e).cfg = s.cfg :=
  foldl_clearDest_keeps State.cfg (by intro s d; cases d <;> rfl) ds s
@[simp] theorem State.raiseError_curCmd : (s.raiseError ds e).curCmd = s.curCmd :=
  foldl_clearDest_keeps State.curCmd (by intro s d; cases d <;> rfl) ds s
@[simp] theorem State.raiseError_inLen : (s.raiseError ds e).inLen = s.inLen :=
  foldl_clearDest_keeps State.inLen (by intro s d; cases d <;> rfl) ds s
@[simp] theorem State.raiseError_inBuf : (s.raiseError ds e).inBuf = s.inBuf :=
  foldl_clearDest_keeps State.inBuf (by intro s d; cases d <;> rfl) ds s
@[simp] theorem State.raiseError_host : (s.raiseError ds e).host = s.host :=
  foldl_clearDest_keeps State.host (by intro s d; cases d <;> rfl) ds s
@[simp] theorem State.raiseError_delays : (s.raiseError ds e).delays = s.delays :=
  foldl_clearDest_keeps State.delays (by intro s d; cases d <;> rfl) ds s
@[simp] theorem State.raiseError_engineDelay : (s.raiseError ds e).engineDelay = s.engineDelay :=
  foldl_clearDest_keeps State.engineDelay (by intro s d; cases d <;> rfl) ds s
@[simp] theorem State.raiseError_reply : (s.raiseError ds e).reply = s.reply :=
  foldl_clearDest_keeps State.reply (by intro s d; cases d <;> rfl) ds s

theorem State.raiseError_outBuf : (s.raiseError ds e).outBuf = if .out ∈ ds then [] else s.outBuf :=
  foldl_clearDest_clears State.outBuf .out [] (fun _ => rfl) (by intro s d h; cases d <;> first | rfl | exact absurd rfl h) ds s
theorem State.raiseError_outLen : (s.raiseError ds e).outLen = if .outLen ∈ ds then 0#32 else s.outLen :=
  foldl_clearDest_clears State.outLen .outLen 0#32 (fun _ => rfl) (by intro s d h; cases d <;> first | rfl | exact absurd rfl h) ds s
theorem State.raiseError_tokCount : (s.raiseError ds e).tokCount = if .tokCount ∈ ds then 0#32 else s.tokCount :=
  foldl_clearDest_clears State.tokCount .tokCount 0#32 (fun _ => rfl) (by intro s d h; cases d <;> first | rfl | exact absurd rfl h) ds s
theorem State.raiseError_cb : (s.raiseError ds e).cb = if .cb ∈ ds then [] else s.cb :=
  foldl_clearDest_clears State.cb .cb [] (fun _ => rfl) (by intro s d h; cases d <;> first | rfl | exact absurd rfl h) ds s
theorem State.raiseError_cbCount : (s.raiseError ds e).cbCount = if .cbCount ∈ ds then 0#9 else s.cbCount :=
  foldl_clearDest_clears State.cbCount .cbCount 0#9 (fun _ => rfl) (by intro s d h; cases d <;> first | rfl | exact absurd rfl h) ds s
theorem State.raiseError_bitsBuf : (s.raiseError ds e).bitsBuf = if .bits ∈ ds then [] else s.bitsBuf :=
  foldl_clearDest_clears State.bitsBuf .bits [] (fun _ => rfl) (by intro s d h; cases d <;> first | rfl | exact absurd rfl h) ds s
theorem State.raiseError_bitsLen : (s.raiseError ds e).bitsLen = if .bitsLen ∈ ds then 0#32 else s.bitsLen :=
  foldl_clearDest_clears State.bitsLen .bitsLen 0#32 (fun _ => rfl) (by intro s d h; cases d <;> first | rfl | exact absurd rfl h) ds s
theorem State.raiseError_pad : (s.raiseError ds e).pad = if .pad ∈ ds then 0#8 else s.pad :=
  foldl_clearDest_clears State.pad .pad 0#8 (fun _ => rfl) (by intro s d h; cases d <;> first | rfl | exact absurd rfl h) ds s
theorem State.raiseError_modelBuf : (s.raiseError ds e).modelBuf = if .model ∈ ds then [] else s.modelBuf :=
  foldl_clearDest_clears State.modelBuf .model [] (fun _ => rfl) (by intro s d h; cases d <;> first | rfl | exact absurd rfl h) ds s
theorem State.raiseError_modelLen : (s.raiseError ds e).modelLen = if .modelLen ∈ ds then 0#32 else s.modelLen :=
  foldl_clearDest_clears State.modelLen .modelLen 0#32 (fun _ => rfl) (by intro s d h; cases d <;> first | rfl | exact absurd rfl h) ds s

end

/-- ERRCODE values are 1 to 5 (60_exceptions.md R240). -/
theorem CmdError.code_range (e : CmdError) : e.code ≠ 0#8 ∧ e.code.toNat ≤ 5 := by
  cases e <;> simp [CmdError.code]

/-! ## The bodies: what each gives when it succeeds -/

theorem lzEncodeBody_ok {s u : State} {data : List Byte} :
    lzEncodeBody s data = .ok u ↔ (ser (lzEnc s.cfg data)).length ≤ s.cfg.maxOut ∧
      (s.putOut (ser (lzEnc s.cfg data))).putTokCount (lzEnc s.cfg data).length = u := by
  simp only [lzEncodeBody, check_bind_ok, decide_eq_true_eq, Except.ok.injEq]

theorem lzDecodeBody_ok {s u : State} {tb : List Byte} :
    lzDecodeBody s tb = .ok u ↔ ∃ r, lzDec s.cfg tb = .ok r ∧ r.1.length ≤ s.cfg.maxOut ∧
      (s.putOut r.1).putTokCount r.2 = u := by
  simp only [lzDecodeBody, bind_ok, check_eq_ok, exists_const, decide_eq_true_eq, Except.ok.injEq]

theorem hufBuildBody_ok {s u : State} {data : List Byte} :
    hufBuildBody s data = .ok u ↔ FreqTable.total (freqOf data) ≤ 2 ^ s.cfg.freqBits - 1 ∧
      (cbText (codebookOf (freqOf data))).length ≤ s.cfg.maxOut ∧
      (s.putCodebook (codebookOf (freqOf data))).putOut (cbText (codebookOf (freqOf data))) = u := by
  simp only [hufBuildBody, checkTotal, check_bind_ok, decide_eq_true_eq, Except.ok.injEq]

theorem hufEncodeBody_ok {s u : State} {data : List Byte} :
    hufEncodeBody s data = .ok u ↔ ∃ bits, hufEnc s.cb data = .ok bits ∧ bits.length ≤ s.cfg.maxBits ∧
      s.putBits bits = u := by
  simp only [hufEncodeBody, bind_ok, check_eq_ok, exists_const, decide_eq_true_eq, Except.ok.injEq]

theorem hufDecodeBody_ok {s u : State} {bits : List Bool} :
    hufDecodeBody s bits = .ok u ↔ (hufDec s.cb bits).length ≤ s.cfg.maxOut ∧ s.putOut (hufDec s.cb bits) = u := by
  simp only [hufDecodeBody, check_bind_ok, decide_eq_true_eq, Except.ok.injEq]

theorem cbLoadBody_ok {s u : State} {text : List Byte} :
    cbLoadBody s text = .ok u ↔ ∃ cb, cbParse text = .ok cb ∧ s.putCodebook cb = u := by
  simp only [cbLoadBody, bind_ok, Except.ok.injEq]

theorem bitPackBody_ok {s u : State} {bits : List Bool} :
    bitPackBody s bits = .ok u ↔ (pack bits).1.length ≤ s.cfg.maxOut ∧
      (s.putOut (pack bits).1).putPad (pack bits).2 = u := by
  simp only [bitPackBody, check_bind_ok, decide_eq_true_eq, Except.ok.injEq]

theorem bitUnpackBody_ok {s u : State} {bytes : List Byte} :
    bitUnpackBody s bytes = .ok u ↔ ∃ bits, unpack bytes s.pad.toNat = .ok bits ∧ bits.length ≤ s.cfg.maxBits ∧
      s.putBits bits = u := by
  simp only [bitUnpackBody, bind_ok, check_eq_ok, exists_const, decide_eq_true_eq, Except.ok.injEq]

theorem compressBody_ok {s u : State} {useCtx : Bool} {data : List Byte} :
    compressBody useCtx s data = .ok u ↔ ∃ r, compressFn s.cfg data useCtx = .ok r ∧ s.putCompressed r = u := by
  simp only [compressBody, bind_ok, Except.ok.injEq]

theorem decompressBody_ok {s u : State} {b : List Byte} :
    decompressBody s b = .ok u ↔ ∃ r, decompressFn s.cfg b = .ok r ∧ s.putDecompressed r = u := by
  simp only [decompressBody, bind_ok, Except.ok.injEq]

/-- What a compression that succeeds gives, stage by stage (44_container_codec.md R216). -/
theorem compressFn_ok {c : Config} {data : List Byte} {useCtx : Bool} {r : Compressed} :
    compressFn c data useCtx = .ok r ↔
      ∃ bits,
        let tb := ser (lzEnc c data)
        let fm := if useCtx then ctxFn c tb else (freqOf tb, [])
        let cb := codebookOf fm.1
        let blob := assemble (cbText cb) (pack bits).2 (pack bits).1 useCtx fm.2
        tb.length ≤ c.maxTok ∧ FreqTable.total fm.1 ≤ 2 ^ c.freqBits - 1 ∧ hufEnc cb tb = .ok bits ∧
        bits.length ≤ c.maxBits ∧ (useCtx = true → fm.2.length ≤ c.maxModel) ∧ blob.length ≤ c.maxOut ∧
        ⟨blob, lzEnc c data, cb, bits, (pack bits).2, fm.2⟩ = r := by
  simp only [compressFn, checkTotal, bind_ok, check_eq_ok, exists_const, exists_and_left, decide_eq_true_eq,
    Except.ok.injEq]
  cases useCtx <;> simp

/-- What a decompression that succeeds gives, stage by stage (44_container_codec.md R217). -/
theorem decompressFn_ok {c : Config} {b : List Byte} {r : Decompressed} :
    decompressFn c b = .ok r ↔ ∃ h bits q, parseHeader b = .ok h ∧
      unpack (findTrailer h.payload).1 h.pad = .ok bits ∧ bits.length ≤ c.maxBits ∧
      (hufDec h.cb bits).length ≤ c.maxTok ∧ lzDec c (hufDec h.cb bits) = .ok q ∧ q.1.length ≤ c.maxOut ∧
      ⟨q.1, q.2, h.cb, bits, h.pad, (findTrailer h.payload).2.isSome,
        (findTrailer h.payload).2.bind (trailerModel c)⟩ = r := by
  simp only [decompressFn, bind_ok, check_eq_ok, exists_const, exists_and_left, decide_eq_true_eq, Except.ok.injEq]

end Sys2Proof.Machine
end

