-- ==== Sys2Proof/Laws/HostPort.lean ====
section
/-! SUPPORT. Everything a host access can do: what it answers when it is accepted, and when it faults. -/

namespace Sys2Proof.Machine

/-- An accepted read leaves its answer on the port, and nothing else but the counter of the free values. -/
theorem hostAccess_read_next {s t : State} {sp : Space} {addr n : Nat} (h : hostAccess s (.read sp addr n) = .next t) :
    ∃ target r, portTarget s.cfg sp addr n = some target ∧ s.readTarget target = some r ∧ t = s.answerRead r := by
  simp only [hostAccess] at h
  split at h
  · split at h <;> cases h
    exact ⟨_, _, ‹_›, ‹_›, rfl⟩
  · cases h

/-- An accepted write stores what its target takes. -/
theorem hostAccess_write_next {s t : State} {sp : Space} {addr n : Nat} {v : Word}
    (h : hostAccess s (.write sp addr n v) = .next t) :
    ∃ target, portTarget s.cfg sp addr n = some target ∧ t = (s.writeTarget v target).answerWrite := by
  simp only [hostAccess] at h
  split at h <;> cases h
  exact ⟨_, ‹_›, rfl⟩

/-- A host access stops in two ways: a bus error where it names nothing, or a read of a cell that holds no value. -/
theorem hostAccess_fault {s : State} {a : Access} {f : Fault} (h : hostAccess s a = .fault f) :
    (∃ sp addr n, portTarget s.cfg sp addr n = none ∧ f = .busError sp addr n) ∨
    (∃ sp addr n target, a = .read sp addr n ∧ portTarget s.cfg sp addr n = some target ∧ s.readTarget target = none ∧
      f = .unwrittenCell sp addr) := by
  cases a with
  | read sp addr n =>
    simp only [hostAccess] at h
    split at h
    · split at h <;> cases h
      exact .inr ⟨_, _, _, _, rfl, ‹_›, ‹_›, rfl⟩
    · cases h
      exact .inl ⟨_, _, _, ‹_›, rfl⟩
  | write sp addr n v =>
    simp only [hostAccess] at h
    split at h <;> cases h
    exact .inl ⟨_, _, _, ‹_›, rfl⟩

/-- No host access is refused. -/
theorem hostAccess_not_refused (s : State) (a : Access) (r : Refusal) : hostAccess s a ≠ .refused r := by
  intro h
  cases a with
  | read sp addr n =>
    simp only [hostAccess] at h
    split at h
    · split at h <;> cases h
    · cases h
  | write sp addr n v =>
    simp only [hostAccess] at h
    split at h <;> cases h

/-- A register read always answers. -/
@[simp] theorem State.readTarget_register (s : State) (r : Reg) : s.readTarget (.register r) = some (s.readRegister r) := rfl

/-- A buffer read while BUSY answers UNSPEC. -/
theorem State.readCell_busy {s : State} (h : s.busy = true) (sp : Space) (addr : Nat) :
    s.readCell sp addr = some (.unspecByte ((s.unspec sp addr).setWidth 8)) := by
  simp [State.readCell, h]

/-- A buffer read finds no value only while IDLE, below the length register, at a cell that holds none. -/
theorem State.readCell_eq_none {s : State} {sp : Space} {addr : Nat} :
    s.readCell sp addr = none ↔ s.busy = false ∧ s.beyondLength sp addr = false ∧ s.cellValue sp addr = none := by
  unfold State.readCell
  cases s.busy <;> cases s.beyondLength sp addr <;> simp

end Sys2Proof.Machine
end

