-- ==== Sys2Proof/Laws/PerInstr.lean ====
section
/-! SUPPORT. Statements made for every command as syntax, one lemma per constructor. -/

namespace Sys2Proof.Laws.LegalWord

/-- The command's word is legal (30_encoding.md R72): well-formed fields, RSVD zero, USE_CTX only in COMPRESS. -/
def Statement (i : Instr) : Prop :=
  i.wf = true ∧ (encode i).extractLsb' 9 23 = 0#23 ∧ ((encode i).getLsbD 8 = true → i = .compress true)

theorem compress (useCtx : Bool) : Statement (.compress useCtx) := by cases useCtx <;> simp [Statement] <;> decide
theorem decompress : Statement .decompress := by simp [Statement]; decide
theorem lzEncode : Statement .lzEncode := by simp [Statement]; decide
theorem lzDecode : Statement .lzDecode := by simp [Statement]; decide
theorem hufBuild : Statement .hufBuild := by simp [Statement]; decide
theorem hufEncode : Statement .hufEncode := by simp [Statement]; decide
theorem hufDecode : Statement .hufDecode := by simp [Statement]; decide
theorem cbLoad : Statement .cbLoad := by simp [Statement]; decide
theorem bitPack : Statement .bitPack := by simp [Statement]; decide
theorem bitUnpack : Statement .bitUnpack := by simp [Statement]; decide

end Sys2Proof.Laws.LegalWord
end

