-- ==== Sys2Proof/Tests/Slice0.lean ====
section
/-! SUPPORT. Tests on fixed values, their expected results from spec/95_test_vectors.md and the rules' worked examples; and, for every
statement with hypotheses, a witness that meets them. -/

namespace Sys2Proof.Tests

open Sys2Proof Sys2Proof.Machine

/-! ## Small states -/

/-- IN holds the bytes and IN_LEN counts them. -/
def withIn (bytes : List Byte) : State :=
  { State.reset with inBuf := Memory.ofList bytes, inLen := BitVec.ofNat 32 bytes.length }

/-- BITS holds the bits and BITS_LEN counts them. -/
def withBits (bits : List Bool) : State :=
  { State.reset with bitsBuf := Memory.ofList bits, bitsLen := BitVec.ofNat 32 bits.length }

/-- The state with other parameters. -/
def withCfg (f : Config → Config) (s : State) : State := { s with cfg := f s.cfg }

/-- A command word latched and running, its engine step `d` host steps away. -/
def running (v : Word) (d : Nat) (host : List HostOp) (s : State) : State :=
  { s with phase := .busy, curCmd := v, engineDelay := d, host := host }

/-- Something of the next state. -/
def after {β : Type} (o : Host.Outcome State Fault Refusal) (f : State → β) : Option β :=
  match o with
  | .next t => some (f t)
  | .fault _ => none
  | .refused _ => none

/-- The fault, if the outcome is one. -/
def faultOf (o : Host.Outcome State Fault Refusal) : Option Fault :=
  match o with
  | .fault f => some f
  | .next _ => none
  | .refused _ => none

/-- The bytes of an ASCII text below 0x80. -/
def ascii (s : String) : List Byte := s.toList.map (fun c => BitVec.ofNat 8 c.toNat)

/-- A code from '0' and '1' characters. -/
def code (s : String) : Code := s.toList.map (fun c => c == '1')

/-- The listed values of a buffer, in address order. -/
def values {α : Type} (m : List (Nat × α)) : List α := m.map Prod.snd

/-- "ABABABAB" (V-SRC-1). -/
def abab : List Byte := [0x41#8, 0x42#8, 0x41#8, 0x42#8, 0x41#8, 0x42#8, 0x41#8, 0x42#8]

/-- The error record of the next state: DONE, ERR, ERRCODE, ERRINFO. -/
def record (t : State) : Bool × Bool × BitVec 8 × Word := (t.done, t.err, t.errCode, t.errInfo)

/-! ## Well-formedness: each check refuses an ill-formed term -/

theorem test_wf_reserved_opcode : (⟨0x12#8, false, 0#23⟩ : CmdFields).wf = false := by decide
theorem test_wf_rsvd : (⟨0x10#8, false, 1#23⟩ : CmdFields).wf = false := by decide
theorem test_wf_ctx_without_compress : (⟨0x02#8, true, 0#23⟩ : CmdFields).wf = false := by decide
theorem test_wf_compress_ctx : (⟨0x01#8, true, 0#23⟩ : CmdFields).wf = true := by decide
theorem test_cfg_window : ({ Config.reference with w := 256 } : Config).legal = false := by decide
theorem test_cfg_window_zero : ({ Config.reference with w := 0 } : Config).legal = false := by decide
theorem test_cfg_min_match : ({ Config.reference with minMatch := 19 } : Config).legal = false := by decide
theorem test_cfg_max_match : ({ Config.reference with maxMatch := 256 } : Config).legal = false := by decide
theorem test_cfg_max_in : ({ Config.reference with maxIn := 0 } : Config).legal = false := by decide
theorem test_cfg_max_out : ({ Config.reference with maxOut := 2 ^ 32 } : Config).legal = false := by decide
theorem test_cfg_max_tok : ({ Config.reference with maxTok := 0 } : Config).legal = false := by decide
theorem test_cfg_max_bits : ({ Config.reference with maxBits := 2 ^ 32 } : Config).legal = false := by decide
theorem test_cfg_max_model : ({ Config.reference with maxModel := 0 } : Config).legal = false := by decide

/-! ## Decoding: words written out from 30_encoding.md R70, R71, as RSVD, USE_CTX, OPCODE -/

theorem test_decode_compress : decode (0#23 ++ 0b0#1 ++ 0b00000001#8) = .ok (.compress false) := by decide
theorem test_decode_compress_ctx : decode (0#23 ++ 0b1#1 ++ 0b00000001#8) = .ok (.compress true) := by decide
theorem test_decode_decompress : decode (0#23 ++ 0b0#1 ++ 0b00000010#8) = .ok .decompress := by decide
theorem test_decode_lz_encode : decode (0#23 ++ 0b0#1 ++ 0b00010000#8) = .ok .lzEncode := by decide
theorem test_decode_lz_decode : decode (0#23 ++ 0b0#1 ++ 0b00010001#8) = .ok .lzDecode := by decide
theorem test_decode_huf_build : decode (0#23 ++ 0b0#1 ++ 0b00100000#8) = .ok .hufBuild := by decide
theorem test_decode_huf_encode : decode (0#23 ++ 0b0#1 ++ 0b00100001#8) = .ok .hufEncode := by decide
theorem test_decode_huf_decode : decode (0#23 ++ 0b0#1 ++ 0b00100010#8) = .ok .hufDecode := by decide
theorem test_decode_cb_load : decode (0#23 ++ 0b0#1 ++ 0b00100011#8) = .ok .cbLoad := by decide
theorem test_decode_bit_pack : decode (0#23 ++ 0b0#1 ++ 0b00110000#8) = .ok .bitPack := by decide
theorem test_decode_bit_unpack : decode (0#23 ++ 0b0#1 ++ 0b00110001#8) = .ok .bitUnpack := by decide
theorem test_decode_reserved : decode (0#23 ++ 0b0#1 ++ 0b11111111#8) = .error .reservedOpcode := by decide
theorem test_decode_ctx : decode (0#23 ++ 0b1#1 ++ 0b00110001#8) = .error .ctxWithoutCompress := by decide
theorem test_decode_rsvd : decode (0b10000000000000000000000#23 ++ 0b0#1 ++ 0b00000001#8) = .error .rsvdNonZero := by decide
theorem test_decode_table_word : decodeTableWord 32 0x101 = some (.compress true) := by decide

/-! ## One step runs the first command after reset -/

theorem test_first_step_compress :
    after (step (State.reset.withFetchWord 32 0x01)) (fun t => (values t.outBuf, t.outLen, record t)) =
      some ([0#8, 0#8, 0#8, 0#8, 0#8], 5#32, true, false, 0#8, 0#32) := by decide +kernel
theorem test_first_step_decompress :
    after (step (State.reset.withFetchWord 32 0x02)) record = some (true, true, 1#8, 1#32) := by decide +kernel
theorem test_first_step_illegal :
    after (step (State.reset.withFetchWord 32 0x111)) record = some (true, true, 4#8, 0x111#32) := by decide +kernel

/-! ## The commands -/

/-- V-LZ-14: a tie takes the smaller distance. -/
theorem test_lz_encode_tie :
    after (exec .lzEncode (withIn (ascii "abcabcXabc"))) (fun t => (values t.outBuf, t.tokCount)) =
      some ([0x00#8, 0x61#8, 0x00#8, 0x62#8, 0x00#8, 0x63#8, 0x01#8, 0x03#8, 0x03#8, 0x00#8, 0x58#8, 0x01#8, 0x03#8, 0x04#8],
        6#32) := by decide +kernel
/-- V-LZ-12: the MAX_MATCH cap, then two bytes left, which are too few. -/
theorem test_lz_encode_cap :
    after (exec .lzEncode (withIn (List.replicate 21 0x61#8))) (fun t => values t.outBuf) =
      some [0x00#8, 0x61#8, 0x01#8, 0x12#8, 0x01#8, 0x00#8, 0x61#8, 0x00#8, 0x61#8] := by decide +kernel
/-- V-LZD-3: an overlapping copy. -/
theorem test_lz_decode_overlap :
    after (exec .lzDecode (withIn [0x00#8, 0x41#8, 0x01#8, 0x12#8, 0x01#8])) (fun t => (values t.outBuf, t.tokCount)) =
      some (List.replicate 19 0x41#8, 2#32) := by decide +kernel
/-- V-LZD-14: the failing token's tag is at offset 5. -/
theorem test_lz_decode_error :
    after (exec .lzDecode (withIn [0x00#8, 0x41#8, 0x01#8, 0x03#8, 0x01#8, 0x01#8, 0x03#8, 0x05#8]))
      (fun t => (record t, t.outBuf, t.outLen)) = some ((true, true, 3#8, 5#32), [], 0#32) := by decide +kernel
/-- V-HUF-9. -/
theorem test_huf_build_order :
    after (exec .hufBuild (withIn (ascii "aaaabbc"))) (fun t => (t.cb, values t.outBuf, t.cbCount)) =
      some ([(99#8, code "00"), (98#8, code "01"), (97#8, code "1")], ascii "99:00;98:01;97:1", 3#9) := by decide +kernel
/-- V-HUF-8: equal counts. -/
theorem test_huf_build_ties :
    after (exec .hufBuild (withIn [5#8, 5#8, 7#8, 7#8, 9#8, 9#8])) (fun t => t.cb) =
      some [(9#8, code "0"), (5#8, code "10"), (7#8, code "11")] := by decide +kernel

/-- The codebook of V-HUF-5. -/
def cb5 : Codebook := [(99#8, code "0"), (97#8, code "10"), (98#8, code "11")]

/-- V-HUF-5. -/
theorem test_huf_encode :
    after (exec .hufEncode { withIn (ascii "aabbbcccc") with cb := cb5 }) (fun t => (values t.bitsBuf, t.bitsLen)) =
      some (code "10101111110000", 14#32) := by decide +kernel
/-- V-HUF-11. -/
theorem test_huf_encode_unknown :
    after (exec .hufEncode { withIn (ascii "abz") with cb := cb5 }) (fun t => (record t, t.bitsLen)) =
      some ((true, true, 2#8, 122#32), 0#32) := by decide +kernel
/-- V-HDEC-5. -/
theorem test_huf_decode :
    after (exec .hufDecode { withBits (code "11100") with cb := cb5 }) (fun t => values t.outBuf) =
      some [0x62#8, 0x61#8, 0x63#8] := by decide +kernel
/-- V-HDEC-9: a codebook that is not prefix-free. -/
theorem test_huf_decode_not_prefix_free :
    after (exec .hufDecode { withBits (code "001") with cb := [(65#8, code "0"), (66#8, code "01")] }) (fun t => values t.outBuf) =
      some [0x41#8, 0x41#8] := by decide +kernel
/-- V-CB-4. -/
theorem test_cb_load :
    after (exec .cbLoad (withIn (ascii "65:0;66:01"))) (fun t => (t.cb, t.cbCount)) =
      some ([(65#8, code "0"), (66#8, code "01")], 2#9) := by decide +kernel
/-- V-CB-18: the third entry repeats the code of the first. -/
theorem test_cb_load_repeated_code :
    after (exec .cbLoad (withIn (ascii "65:1;66:0;67:1"))) (fun t => (record t, t.cb)) =
      some ((true, true, 1#8, 6#32), []) := by decide +kernel
/-- V-PK-5. -/
theorem test_bit_pack :
    after (exec .bitPack (withBits (code "0101010101"))) (fun t => (values t.outBuf, t.pad)) =
      some ([0x55#8, 0x40#8], 6#8) := by decide +kernel
/-- V-PK-9. -/
theorem test_bit_pack_capacity :
    after (exec .bitPack { State.reset with bitsLen := 65537#32 }) record = some (true, true, 5#8, 4#32) := by decide +kernel
/-- V-UPK-6: non-zero pad bits are dropped. -/
theorem test_bit_unpack :
    after (exec .bitUnpack { withIn [0xFF#8] with pad := 3#8 }) (fun t => values t.bitsBuf) = some (code "11111") := by decide +kernel
/-- V-UPK-7. -/
theorem test_bit_unpack_empty :
    after (exec .bitUnpack { withIn [] with pad := 1#8 }) record = some (true, true, 1#8, 7#32) := by decide +kernel
/-- V-CMP-3. -/
theorem test_compress :
    after (exec (.compress false) (withIn abab)) (fun t => (values t.outBuf, t.pad, t.tokCount)) =
      some ([0#8, 0#8, 0#8, 0x23#8] ++ ascii "2:00;0:01;65:100;66:101;1:110;6:111" ++ [0x06#8, 0x63#8, 0x77#8, 0x00#8],
        6#8, 3#32) := by decide +kernel
/-- V-CTX-1, up to the trailer's length field. -/
theorem test_compress_ctx :
    after (exec (.compress true) (withIn abab)) (fun t => ((values t.outBuf).take 55, t.outLen, t.modelLen)) =
      some ([0#8, 0#8, 0#8, 0x23#8] ++ ascii "2:00;65:010;66:011;1:100;6:101;0:11" ++ [0x06#8, 0xD6#8, 0xE5#8, 0x00#8] ++
        ascii "CTXMODEL" ++ [0x24#8, 0#8, 0#8, 0#8], 91#32, 36#32) := by decide +kernel
/-- V-DEC-15: bytes after the model are ignored. -/
theorem test_decompress_trailer :
    after (exec .decompress (withIn ([0#8, 0#8, 0#8, 0#8, 0#8] ++ ascii "CTXMODEL" ++
      [0x02#8, 0#8, 0#8, 0#8, 0x61#8, 0x62#8, 0x63#8, 0x64#8]))) (fun t => (t.ctxPresent, t.ctxValid, values t.modelBuf, t.outLen)) =
      some (true, true, [0x61#8, 0x62#8], 0#32) := by decide +kernel
/-- V-DEC-19: a payload whose last token is truncated. -/
theorem test_decompress_stream_error :
    after (exec .decompress (withIn ([0#8, 0#8, 0#8, 3#8] ++ ascii "0:0" ++ [3#8, 0#8]))) record =
      some (true, true, 3#8, 4#32) := by decide +kernel

/-! ## The port -/

/-- 20_memory.md R52: 0x2C is the last register, 0x30 a bus error. -/
theorem test_bus_error :
    faultOf (hostAccess State.reset (.read .reg 0x30 4)) = some (.busError .reg 0x30 4) ∧
    faultOf (hostAccess State.reset (.read .reg 0x2C 4)) = none := by decide +kernel
/-- 60_exceptions.md R242: a host read while IDLE of an IN cell that nothing has written, and of one that was (log 25). -/
theorem test_host_read_no_value :
    faultOf (hostAccess (withIn [7#8]) (.read .inBuf 1 1)) = some (.unwrittenCell .inBuf 1) ∧
    after (hostAccess (withIn [7#8]) (.read .inBuf 0 1)) State.reply = some (.byte 7#8) := by decide +kernel
/-- 60_exceptions.md R244, R242: BITS cell 0, cleared by an error; beyond BITS_LEN it answers, below a raised BITS_LEN the read faults
(log 26). -/
theorem test_host_read_cleared_bits :
    after (exec .hufEncode { withIn [0x41#8] with bitsBuf := [(0, true)], bitsLen := 1#32 })
      (fun t => (t.err, faultOf (hostAccess t (.read .bits 0 1)),
        faultOf (hostAccess { t with bitsLen := 1#32 } (.read .bits 0 1)))) =
      some (true, none, some (.unwrittenCell .bits 0)) := by decide +kernel
/-- 30_encoding.md R76, R77: a whole host script, up to its last answer. -/
theorem test_host_script :
    after (core.run 5 { State.reset with
      host := scriptLOADIN [0x41#8] ++ scriptRUN .lzEncode ++ [scriptRD .outLen], delays := [0] }) (fun t => (t.phase, t.outLen)) =
      some (.idle, 2#32) := by decide +kernel
/-- 70_reset_and_hazards.md R274: an unwritten input cell. -/
theorem test_unwritten_input :
    faultOf (exec .lzEncode { State.reset with inLen := 1#32 }) = some (.unwrittenCell .inBuf 0) := by decide +kernel

/-! ## Witnesses: states and operands that meet the statements' hypotheses -/

/-- The result of a compression, for the witnesses. -/
def compressedOf (data : List Byte) (useCtx : Bool) : Compressed :=
  match compressFn Config.reference data useCtx with
  | .ok r => r
  | .error _ => ⟨[], [], [], [], 0, []⟩

theorem witness_ResetEventResetsBlock_running :
    let s := running (encode .lzEncode) 1 [.reset] (withIn abab)
    s.engineTurn = false ∧ s.host = .reset :: [] := by decide +kernel

theorem witness_ResetEventResetsBlock_with_access :
    let a : Access := .write .reg 0x04 4 0x10#32
    let s := { withIn abab with host := [.resetWith a] }
    s.engineTurn = false ∧ s.host = .resetWith a :: [] ∧ ∃ u, hostAccess (s.takeHostOp []) a = .next u :=
  ⟨by decide, rfl, _, rfl⟩

theorem witness_RegisterAccess : State.reset.phase = .idle ∧ 5 ≤ 31 := by decide

theorem witness_ReadOnlyWritesIgnored :
    0x2C ∈ [0x00, 0x08, 0x0C, 0x10, 0x18, 0x24, 0x28, 0x2C] ∧ 4095 < State.reset.cfg.maxOut ∧ 4095 < State.reset.cfg.maxModel := by
  decide

theorem witness_RegBusErrors :
    (4 = 4 ∧ 0x2C % 4 = 0 ∧ 0x2C < 0x30) ∧ ¬ (4 = 4 ∧ 0x30 % 4 = 0 ∧ 0x30 < 0x30) ∧ ¬ (4 = 4 ∧ 0x02 % 4 = 0 ∧ 0x02 < 0x30) := by
  decide

theorem witness_BufferBusErrors :
    let c := State.reset.cfg
    (Space.bits, 65536) ∈ [(Space.inBuf, c.maxIn), (Space.outBuf, c.maxOut), (Space.bits, c.maxBits), (Space.model, c.maxModel)] ∧
      (1 = 1 ∧ 65535 < 65536) ∧ ¬ (1 = 1 ∧ 65536 < 65536) := by decide

/-- An IDLE state with one value in every buffer. -/
def oneInEach : State :=
  { withIn [7#8] with
    outBuf := Memory.ofList [1#8], outLen := 1#32, bitsBuf := Memory.ofList [true], bitsLen := 1#32
    modelBuf := Memory.ofList [2#8], modelLen := 1#32 }

theorem witness_IdleBufferAccess :
    let s := oneInEach
    s.phase = .idle ∧ 4095 < s.cfg.maxIn ∧ 65535 < s.cfg.maxBits ∧
    (0 < s.cfg.maxIn ∧ Memory.read s.inBuf 0 = some 7#8) ∧
    (0 < s.cfg.maxOut ∧ 0 < s.outLen.toNat ∧ Memory.read s.outBuf 0 = some 1#8) ∧
    (0 < s.cfg.maxBits ∧ 0 < s.bitsLen.toNat ∧ Memory.read s.bitsBuf 0 = some true) ∧
    (0 < s.cfg.maxModel ∧ 0 < s.modelLen.toNat ∧ Memory.read s.modelBuf 0 = some 2#8) ∧
    ((Space.bits, 1, 65536) ∈ [(Space.outBuf, s.outLen.toNat, s.cfg.maxOut), (Space.bits, s.bitsLen.toNat, s.cfg.maxBits),
      (Space.model, s.modelLen.toNat, s.cfg.maxModel)] ∧ 1 ≤ 1 ∧ 1 < 65536) := by decide +kernel

theorem witness_IdleBufferAccess_no_value :
    let s := { oneInEach with outLen := 2#32, bitsLen := 2#32, modelLen := 2#32 };
    s.phase = .idle ∧ (4095 < s.cfg.maxIn ∧ Memory.read s.inBuf 4095 = none) ∧
    (1 < s.cfg.maxOut ∧ 1 < s.outLen.toNat ∧ Memory.read s.outBuf 1 = none) ∧
    (1 < s.cfg.maxBits ∧ 1 < s.bitsLen.toNat ∧ Memory.read s.bitsBuf 1 = none) ∧
    (1 < s.cfg.maxModel ∧ 1 < s.modelLen.toNat ∧ Memory.read s.modelBuf 1 = none) := by decide +kernel

theorem witness_BusyAccesses :
    let s := running (encode .lzEncode) 1 [] oneInEach;
    s.phase = .busy ∧ (∃ t, hostAccess s (.write .inBuf 4095 1 0x55#32) = .next t) ∧
      (Space.bits, 65536) ∈ [(Space.inBuf, s.cfg.maxIn), (Space.outBuf, s.cfg.maxOut), (Space.bits, s.cfg.maxBits),
        (Space.model, s.cfg.maxModel)] ∧ 65535 < 65536 :=
  ⟨rfl, ⟨_, rfl⟩, by decide, by decide⟩

theorem witness_OnlyCmdWriteStartsCommand :
    (State.reset.phase = .idle ∧ ∃ t, hostAccess State.reset (.read .outBuf 4095 1) = .next t) ∧
    (∃ t, step { State.reset with host := [scriptWR .cmd 0x10#32] } = .next t ∧ t.phase = .busy) ∧
    (let s := running 0x10#32 1 [.dumpOut] State.reset;
      s.phase = .busy ∧ s.engineDelay ≠ 0 ∧ s.host = .dumpOut :: [] ∧ HostOp.dumpOut ≠ .reset ∧
        (∀ a, HostOp.dumpOut ≠ .resetWith a)) :=
  ⟨⟨rfl, _, rfl⟩, ⟨_, rfl, rfl⟩, rfl, by decide, rfl, by decide, fun _ h => by cases h⟩

theorem witness_CommandStartAndEnd :
    State.reset.phase = .idle ∧ (∃ t, exec .lzEncode State.reset = .next t) ∧ ∃ t, exec .decompress State.reset = .next t :=
  ⟨rfl, ⟨_, rfl⟩, _, rfl⟩

theorem witness_StepRunsDecodedCommand :
    (let s := running (encode .bitPack) 5 [] State.reset;
      s.phase = .busy ∧ s.host = [] ∧ decode s.curCmd = .ok .bitPack) ∧
    (let s := running (encode .bitPack) 0 [.wait] State.reset;
      s.phase = .busy ∧ s.engineDelay = 0 ∧ decode s.curCmd = .ok .bitPack) ∧
    (let s := running (encode .bitPack) 1 [.wait] State.reset;
      s.engineDelay ≠ 0 ∧ s.host = .wait :: []) ∧
    (State.reset.phase = .idle ∧ State.reset.host = []) := by decide +kernel

theorem witness_LegalityOfWords :
    (let s := running 0x101#32 0 [] State.reset;
      s.phase = .busy ∧ s.host = [] ∧ LegalWord s.curCmd) ∧
    (let s := running 0x201#32 0 [] State.reset;
      s.phase = .busy ∧ s.host = [] ∧ ¬ LegalWord s.curCmd) := by unfold LegalWord; decide +kernel

theorem witness_MatchLengthIsMaximal : 1 < ([0x61#8, 0x61#8] : List Byte).length ∧ 1 ≤ 1 ∧ 1 ≤ 1 := by decide

theorem witness_LongestPrefersSmallestDistance :
    0 < abab.length ∧ 7 < abab.length ∧ 1 ≤ 2 ∧ 2 ≤ min Config.reference.w 7 ∧ longest Config.reference abab 2 ≠ (0, 0) := by decide

theorem witness_EncoderIsGreedy :
    Config.reference.legal = true ∧
    (let before := [Token.literal 0x41#8, Token.literal 0x42#8];
      lzEnc Config.reference abab = before ++ Token.backRef 6 2 :: [] ∧
        (longest Config.reference abab (spanOf before)).1 ≥ Config.reference.minMatch) ∧
    (lzEnc Config.reference abab = [] ++ Token.literal 0x41#8 :: [.literal 0x42#8, .backRef 6 2] ∧
      (longest Config.reference abab 0).1 < Config.reference.minMatch) := by decide +kernel

theorem witness_EncoderOutputProperties :
    Config.reference.legal = true ∧ abab ≠ [] ∧
    lzEnc Config.reference abab = [.literal 0x41#8, .literal 0x42#8] ++ .backRef 6 2 :: [] := by decide +kernel

theorem witness_TokenBytes : 2 ≤ (0x02#8).toNat ∧ 2 ≤ (0xFF#8).toNat := by decide

theorem witness_ReplayCopiesByteByByte : 1 ≤ 1 ∧ 1 ≤ ([0x61#8] : List Byte).length ∧ 17 < 18 := by decide

theorem witness_DecoderReplaysUntilFirstFailure :
    let c := Config.reference
    (lzDec c [0x00#8, 0x41#8] = .ok ([0x41#8], 1) ∧
      parseToken [0x01#8, 0x12#8, 0x01#8] = some (.backRef 18 1, []) ∧
      ∀ l d, Token.backRef 18 1 = .backRef l d →
        c.minMatch ≤ l ∧ l ≤ c.maxMatch ∧ 1 ≤ d ∧ d ≤ c.w ∧ d ≤ ([0x41#8] : List Byte).length) ∧
    lzDec c [0x00#8, 0x41#8, 0x01#8, 0x03#8, 0x02#8] = .error (.corruptStream 2) := by
  refine ⟨⟨by decide, by decide, ?_⟩, by decide⟩
  intro l d h
  injection h with hl hd
  subst hl hd
  decide

theorem witness_MatcherRoundTrip : Config.reference.legal = true ∧
    ({ Config.reference with w := 1, minMatch := 255, maxMatch := 255 } : Config).legal = true := by decide

theorem witness_TreeBuilderMergesStably :
    2 ≤ ([Tree.leaf 1#8 1, Tree.leaf 2#8 1] : List Tree).length ∧ ([(1#8, 0)] : FreqTable) ≠ [] := by decide

theorem witness_GeneratedCodebookValid : ([0x41#8] : List Byte) ≠ [] := by decide

theorem witness_CodebookTextRoundTrip :
    Codebook.Valid cb5 ∧ cb5 ≠ [] ∧ (ascii "0:10").head? = some 0x30#8 ∧ (ascii "0:10")[1]? = some 0x3A#8 := by
  unfold Codebook.Valid
  decide +kernel

theorem witness_CodebookTextAccepted :
    cbParse (ascii "065:0") = .ok [(65#8, code "0")] ∧ cbParse (ascii "65:") = .error (.corruptContainer .malformedText) ∧
    cbParse (ascii "65:0;65:1") = .error (.corruptContainer .repeatedSymbol) ∧
    cbParse (ascii "65:0;66:0") = .error (.corruptContainer .repeatedCode) := by decide +kernel

theorem spells_cb5_first : SpellsEntry (ascii "99:0") (99#8, code "0") := ⟨ascii "99", by decide⟩

theorem witness_CodebookTextAccepted_before :
    List.Forall₂ SpellsEntry [ascii "99:0"] [(99#8, code "0")] ∧ Codebook.Valid [(99#8, code "0")] :=
  ⟨.cons spells_cb5_first .nil, by unfold Codebook.Valid; decide⟩

theorem witness_CodebookTextAccepted_malformed :
    0x3B#8 ∉ ([] : List Byte) ∧ (∀ e, ¬ SpellsEntry [] e) ∧
      List.intercalate [0x3B#8] ([ascii "99:0"] ++ [] :: []) ≠ [] := by
  refine ⟨by decide, ?_, by decide⟩
  rintro e ⟨digits, h, -⟩
  cases digits <;> cases h

theorem witness_CodebookTextAccepted_repeats :
    (0x3B#8 ∉ ascii "099:0" ∧ SpellsEntry (ascii "099:0") (99#8, code "0") ∧
      99#8 ∈ ([(99#8, code "0")] : Codebook).map Prod.fst) ∧
    (0x3B#8 ∉ ascii "97:0" ∧ SpellsEntry (ascii "97:0") (97#8, code "0") ∧
      97#8 ∉ ([(99#8, code "0")] : Codebook).map Prod.fst ∧ code "0" ∈ ([(99#8, code "0")] : Codebook).map Prod.snd) :=
  ⟨⟨by decide, ⟨ascii "099", by decide⟩, by decide⟩, by decide, ⟨ascii "97", by decide⟩, by decide, by decide⟩

theorem witness_EncoderConcatenatesCodes :
    hufEnc cb5 [97#8, 99#8] = .ok (code "100") ∧ hufEnc cb5 [97#8, 122#8] = .error (.unknownSymbol 122#8) := by decide +kernel

theorem witness_GreedyDecoding :
    (Codebook.Valid cb5 ∧ (97#8, code "10") ∈ cb5 ∧
      ∀ k, 0 < k → k < (code "10").length → ∀ e ∈ cb5, e.2 ≠ (code "10").take k) ∧
    (∀ k, 0 < k → k ≤ (code "1").length → ∀ e ∈ cb5, e.2 ≠ (code "1").take k) ∧
    (let cb : Codebook := [(65#8, code "0"), (66#8, code "01")];
      Codebook.Valid cb ∧ (65#8, code "0") ∈ cb ∧ (66#8, code "01") ∈ cb ∧ code "0" <+: code "01" ∧ code "0" ≠ code "01") := by
  unfold Codebook.Valid
  refine ⟨⟨by decide +kernel, by decide +kernel, ?_⟩, ?_, by decide +kernel⟩
  · intro k h1 h2
    have : k = 1 := by
      have : (code "10").length = 2 := by decide
      omega
    subst this
    decide +kernel
  · intro k h1 h2
    have : k = 1 := by
      have : (code "1").length = 1 := by decide
      omega
    subst this
    decide +kernel

theorem witness_UnpackChecksAndBits :
    7 < 8 ∧ (7 ≤ 7 ∧ ([] : List Byte) = [] ∧ 0 < 7) ∧ (7 ≤ 7 ∧ ([0x80#8] : List Byte) ≠ []) ∧ (0 ≤ 7 ∧ 0 = 0) := by decide

theorem witness_ContextTrainingAndTable :
    ([1#8, 2#8] : List Byte).length ≤ 2 ∧ ([1#8, 2#8] : List Byte).length = 2 ∧
    0 < CtxTable.observed (train [1#8, 2#8, 1#8] 2) [1#8, 2#8] 1#8 := by decide

theorem witness_CompressNeverUnknownSymbol : Config.reference.collaborator = .reference := rfl

theorem witness_BlobLayout : 2 ^ 32 - 1 < 2 ^ 32 ∧ 5 ≤ ({ Config.reference with maxOut := 5 } : Config).maxOut := by decide

theorem witness_HeaderChecksInOrder :
    ([0#8, 0#8, 0#8] : List Byte).length < 4 ∧
    (let b : List Byte := [0#8, 0#8, 0#8, 0#8];
      4 ≤ b.length ∧ b.length < 4 + 0 + 1) ∧
    (let b : List Byte := [0#8, 0#8, 0#8, 0#8, 8#8];
      4 + 0 + 1 ≤ b.length ∧ 7 < (b.getD 4 0#8).toNat) ∧
    (let b : List Byte := [0#8, 0#8, 0#8, 1#8, 0x41#8, 7#8];
      4 + 1 + 1 ≤ b.length ∧ (b.getD 5 0#8).toNat ≤ 7 ∧ cbParse ((b.drop 4).take 1) = .error (.corruptContainer .malformedText)) ∧
    (let b : List Byte := [0#8, 0#8, 0#8, 0#8, 7#8];
      4 + 0 + 1 ≤ b.length ∧ (b.getD 4 0#8).toNat ≤ 7 ∧ cbParse ((b.drop 4).take 0) = .ok []) := by decide +kernel

theorem witness_TrailerIsLastMarker :
    (∀ q, ¬ marker <+: ([] : List Byte).drop q) ∧
    (marker <+: (marker ++ marker).drop 8 ∧ ∀ q', 8 < q' → ¬ marker <+: (marker ++ marker).drop q') := by
  refine ⟨?_, by decide, ?_⟩
  · intro q h
    have := h.length_le
    simp [marker] at this
  · intro q' hq h
    have := h.length_le
    simp [marker] at this
    omega

theorem witness_TrailerIsAdvisory :
    let front : List Byte := [0#8, 0#8, 0#8, 0#8, 0#8]
    5 + be32 front ≤ front.length ∧
    (∀ q, front.length < q → ¬ marker <+: (front ++ marker ++ [0xFF#8]).drop q) ∧
    (∀ q, front.length < q → ¬ marker <+: (front ++ marker ++ []).drop q) ∧
    ∃ r, decompressFn Config.reference (front ++ marker ++ [0xFF#8]) = .ok r := by
  refine ⟨by decide, ?_, ?_, ⟨[], 0, [], [], 0, true, none⟩, by decide +kernel⟩
  · intro q hq h
    have hl := h.length_le
    simp [marker] at hl
    simp at hq
    have : q = 6 := by omega
    subst this
    revert h
    decide
  · intro q hq h
    have hl := h.length_le
    simp [marker] at hl
    simp at hq
    omega

theorem witness_ContainerRoundTrip_plain :
    let r := compressedOf [0x41#8] false
    Config.reference.legal = true ∧ compressFn Config.reference [0x41#8] false = .ok r ∧
    ([0x41#8] : List Byte).length ≤ Config.reference.maxOut ∧
    ∀ p, 5 + (cbText r.cb).length ≤ p → marker <+: r.blob.drop p →
      false = true ∧ p = 5 + (cbText r.cb).length + (pack r.bits).1.length := by
  refine ⟨by decide, by decide +kernel, by decide, ?_⟩
  intro p hp h
  have h1 : (cbText (compressedOf [0x41#8] false).cb).length = 8 := by decide +kernel
  have h2 : (compressedOf [0x41#8] false).blob.length = 14 := by decide +kernel
  have hl := h.length_le
  rw [List.length_drop, h2] at hl
  simp [marker] at hl
  omega

theorem witness_ContainerRoundTrip_ctx :
    let r := compressedOf [0x41#8] true
    Config.reference.legal = true ∧ compressFn Config.reference [0x41#8] true = .ok r ∧
    ([0x41#8] : List Byte).length ≤ Config.reference.maxOut ∧
    ∀ p, 5 + (cbText r.cb).length ≤ p → marker <+: r.blob.drop p →
      true = true ∧ p = 5 + (cbText r.cb).length + (pack r.bits).1.length := by
  refine ⟨by decide, by decide +kernel, by decide, ?_⟩
  intro p hp h
  have h1 : (cbText (compressedOf [0x41#8] true).cb).length = 8 := by decide +kernel
  have h2 : (compressedOf [0x41#8] true).blob.length = 27 := by decide +kernel
  have h3 : (pack (compressedOf [0x41#8] true).bits).1.length = 1 := by decide +kernel
  have hl := h.length_le
  rw [List.length_drop, h2] at hl
  simp [marker] at hl
  rw [h1, h3]
  refine ⟨rfl, ?_⟩
  have h4 : ∀ q, q < 20 → marker <+: (compressedOf [0x41#8] true).blob.drop q → q = 14 := by decide +kernel
  exact h4 p (by omega) h

/-- IN_LEN above MAX_IN, and BITS_LEN above MAX_BITS, by one. -/
def tooLong : State := { State.reset with inLen := 4097#32, bitsLen := 65537#32 }

theorem witness_too_long :
    tooLong.cfg.legal = true ∧ tooLong.cfg.maxIn < tooLong.inLen.toNat ∧ tooLong.cfg.maxBits < tooLong.bitsLen.toNat := by
  decide +kernel

theorem witness_LzEncodeCommand :
    (let s := withCfg (fun c => { c with maxOut := 6 }) (withIn abab);
      s.cfg.legal = true ∧ s.InputIs abab ∧ abab.length ≤ s.cfg.maxIn ∧ s.cfg.maxOut < (ser (lzEnc s.cfg abab)).length) ∧
    (let s := withCfg (fun c => { c with maxOut := 7 }) (withIn abab);
      s.cfg.legal = true ∧ s.InputIs abab ∧ abab.length ≤ s.cfg.maxIn ∧ (ser (lzEnc s.cfg abab)).length ≤ s.cfg.maxOut) := by
  unfold State.InputIs
  decide +kernel

theorem witness_LzDecodeCommand :
    (let s := withIn [0x00#8];
      s.cfg.legal = true ∧ s.InputIs [0x00#8] ∧ lzDec s.cfg [0x00#8] = .error (.corruptStream 0)) ∧
    (let s := withCfg (fun c => { c with maxOut := 1 }) (withIn [0x00#8, 0x41#8, 0x00#8, 0x42#8]);
      s.cfg.legal = true ∧ s.InputIs [0x00#8, 0x41#8, 0x00#8, 0x42#8] ∧
        lzDec s.cfg [0x00#8, 0x41#8, 0x00#8, 0x42#8] = .ok ([0x41#8, 0x42#8], 2) ∧ s.cfg.maxOut < 2) ∧
    (let s := withCfg (fun c => { c with maxOut := 1 }) (withIn [0x00#8, 0x41#8]);
      s.cfg.legal = true ∧ s.InputIs [0x00#8, 0x41#8] ∧ lzDec s.cfg [0x00#8, 0x41#8] = .ok ([0x41#8], 1) ∧ 1 ≤ s.cfg.maxOut) := by
  unfold State.InputIs
  decide +kernel

theorem witness_HufBuildCommand :
    (let s := withCfg (fun c => { c with freqBits := 2 }) (withIn (ascii "AAAA"));
      s.cfg.legal = true ∧ s.InputIs (ascii "AAAA") ∧ 2 ^ s.cfg.freqBits - 1 < FreqTable.total (freqOf (ascii "AAAA"))) ∧
    (let s := withCfg (fun c => { c with maxOut := 3, freqBits := 2 }) (withIn (ascii "AAA"));
      s.cfg.legal = true ∧ s.InputIs (ascii "AAA") ∧ FreqTable.total (freqOf (ascii "AAA")) ≤ 2 ^ s.cfg.freqBits - 1 ∧
        s.cfg.maxOut < (cbText (codebookOf (freqOf (ascii "AAA")))).length) ∧
    (let s := withCfg (fun c => { c with maxOut := 4, freqBits := 2 }) (withIn (ascii "AAA"));
      s.cfg.legal = true ∧ s.InputIs (ascii "AAA") ∧ FreqTable.total (freqOf (ascii "AAA")) ≤ 2 ^ s.cfg.freqBits - 1 ∧
        (cbText (codebookOf (freqOf (ascii "AAA")))).length ≤ s.cfg.maxOut) := by
  unfold State.InputIs
  decide +kernel

theorem witness_HufEncodeCommand :
    (let s := withIn [65#8];
      s.cfg.legal = true ∧ s.InputIs [65#8] ∧ hufEnc s.cb [65#8] = .error (.unknownSymbol 65#8)) ∧
    (let s := withCfg (fun c => { c with maxBits := 1 }) { withIn [97#8] with cb := cb5 };
      s.cfg.legal = true ∧ s.InputIs [97#8] ∧ hufEnc s.cb [97#8] = .ok (code "10") ∧ s.cfg.maxBits < (code "10").length) ∧
    (let s := withCfg (fun c => { c with maxBits := 2 }) { withIn [97#8] with cb := cb5 };
      s.cfg.legal = true ∧ s.InputIs [97#8] ∧ hufEnc s.cb [97#8] = .ok (code "10") ∧ (code "10").length ≤ s.cfg.maxBits) := by
  unfold State.InputIs
  decide +kernel

theorem witness_HufDecodeCommand :
    (let s := withCfg (fun c => { c with maxOut := 1 }) { withBits (code "00") with cb := cb5 };
      s.cfg.legal = true ∧ s.BitsInputIs (code "00") ∧ (code "00").length ≤ s.cfg.maxBits ∧
        s.cfg.maxOut < (hufDec s.cb (code "00")).length) ∧
    (let s := withCfg (fun c => { c with maxOut := 1 }) { withBits (code "101") with cb := cb5 };
      s.cfg.legal = true ∧ s.BitsInputIs (code "101") ∧ (code "101").length ≤ s.cfg.maxBits ∧
        (hufDec s.cb (code "101")).length ≤ s.cfg.maxOut) := by
  unfold State.BitsInputIs
  decide +kernel

theorem witness_CbLoadCommand :
    (let s := withIn (ascii "256:0");
      s.cfg.legal = true ∧ s.InputIs (ascii "256:0") ∧ cbParse (ascii "256:0") = .error (.corruptContainer .malformedText)) ∧
    (let s := withIn (ascii "255:0");
      s.cfg.legal = true ∧ s.InputIs (ascii "255:0") ∧ cbParse (ascii "255:0") = .ok [(255#8, code "0")]) := by
  unfold State.InputIs
  decide +kernel

theorem witness_BitPackCommand :
    (let s := withCfg (fun c => { c with maxOut := 1 }) (withBits (code "111111111"));
      s.cfg.legal = true ∧ s.BitsInputIs (code "111111111") ∧ s.cfg.maxOut < (pack (code "111111111")).1.length) ∧
    (let s := withCfg (fun c => { c with maxOut := 1 }) (withBits (code "11111111"));
      s.cfg.legal = true ∧ s.BitsInputIs (code "11111111") ∧ (pack (code "11111111")).1.length ≤ s.cfg.maxOut) := by
  unfold State.BitsInputIs
  decide +kernel

theorem witness_BitUnpackCommand :
    (let s := { withIn [] with pad := 8#8 };
      s.cfg.legal = true ∧ s.InputIs [] ∧ 7 < s.pad.toNat) ∧
    (let s := { withIn [] with pad := 7#8 };
      s.cfg.legal = true ∧ s.InputIs [] ∧ s.pad.toNat ≤ 7 ∧ 0 < s.pad.toNat) ∧
    (let s := withCfg (fun c => { c with maxBits := 1 }) { withIn [0xFF#8] with pad := 6#8 };
      s.cfg.legal = true ∧ s.InputIs [0xFF#8] ∧ s.pad.toNat ≤ 7 ∧ s.cfg.maxBits < 8 * 1 - s.pad.toNat) ∧
    (let s := withCfg (fun c => { c with maxBits := 1 }) { withIn [0xFF#8] with pad := 7#8 };
      s.cfg.legal = true ∧ s.InputIs [0xFF#8] ∧ s.pad.toNat ≤ 7 ∧ 8 * 1 - s.pad.toNat ≤ s.cfg.maxBits) := by
  unfold State.InputIs
  decide +kernel

theorem witness_CompressCommand :
    (let s := withCfg (fun c => { c with maxOut := 13 }) (withIn [0x41#8]);
      s.cfg.legal = true ∧ s.InputIs [0x41#8] ∧ compressFn s.cfg [0x41#8] false = .error (.capacity .outBuf)) ∧
    (let s := withIn [0x41#8];
      s.cfg.legal = true ∧ s.InputIs [0x41#8] ∧ compressFn s.cfg [0x41#8] false = .ok (compressedOf [0x41#8] false) ∧
        compressFn s.cfg [0x41#8] true = .ok (compressedOf [0x41#8] true)) := by
  unfold State.InputIs
  decide +kernel

theorem witness_DecompressCommand :
    (let s := withIn [0#8, 0#8, 0#8, 0#8];
      s.cfg.legal = true ∧ s.InputIs [0#8, 0#8, 0#8, 0#8] ∧
        decompressFn s.cfg [0#8, 0#8, 0#8, 0#8] = .error (.corruptContainer .textTooLong)) ∧
    (let s := withIn [0#8, 0#8, 0#8, 0#8, 0#8];
      s.cfg.legal = true ∧ s.InputIs [0#8, 0#8, 0#8, 0#8, 0#8] ∧
        decompressFn s.cfg [0#8, 0#8, 0#8, 0#8, 0#8] = .ok ⟨[], 0, [], [], 0, false, none⟩) := by
  unfold State.InputIs
  decide +kernel

theorem witness_CompressStagesInOrder :
    let c := Config.reference
    let tb : List Byte := [0x00#8, 0x41#8]
    ser (lzEnc c [0x41#8]) = tb ∧
    ({ c with maxTok := 1 } : Config).maxTok < tb.length ∧ tb.length ≤ ({ c with maxTok := 2 } : Config).maxTok ∧
    2 ^ ({ c with freqBits := 1 } : Config).freqBits - 1 < FreqTable.total (freqOf tb) ∧
    FreqTable.total (freqOf tb) ≤ 2 ^ ({ c with freqBits := 2 } : Config).freqBits - 1 ∧
    hufEnc (codebookOf (freqOf tb)) tb = .ok (code "01") ∧
    ({ c with maxBits := 1 } : Config).maxBits < (code "01").length ∧ (code "01").length ≤ ({ c with maxBits := 2 } : Config).maxBits ∧
    ({ c with maxModel := 0 } : Config).maxModel < (ctxFn c tb).2.length ∧
    (ctxFn c tb).2.length ≤ ({ c with maxModel := 1 } : Config).maxModel ∧
    ({ c with maxOut := 13 } : Config).maxOut < (compressedOf [0x41#8] false).blob.length ∧
    (compressedOf [0x41#8] false).blob.length ≤ ({ c with maxOut := 14 } : Config).maxOut := by decide +kernel

theorem witness_DecompressStagesInOrder :
    let c := Config.reference
    parseHeader [] = .error (.corruptContainer .shortBlob) ∧
    parseHeader [0#8, 0#8, 0#8, 0#8, 3#8] = .ok ⟨3, [], []⟩ ∧ findTrailer [] = ([], none) ∧ 0 < 3 ∧
    parseHeader ([0#8, 0#8, 0#8, 3#8] ++ ascii "0:0" ++ [4#8, 0#8]) = .ok ⟨4, [(0#8, code "0")], [0#8]⟩ ∧
    unpackBits [0#8] 4 = code "0000" ∧
    ({ c with maxBits := 3 } : Config).maxBits < 4 ∧ 4 ≤ ({ c with maxBits := 4 } : Config).maxBits ∧
    hufDec [(0#8, code "0")] (code "0000") = [0#8, 0#8, 0#8, 0#8] ∧
    ({ c with maxTok := 3 } : Config).maxTok < 4 ∧ 4 ≤ ({ c with maxTok := 4 } : Config).maxTok ∧
    lzDec c [0#8] = .error (.corruptStream 0) ∧ lzDec c [0#8, 0#8, 0#8, 0#8] = .ok ([0#8, 0#8], 2) ∧
    ({ c with maxOut := 1 } : Config).maxOut < 2 ∧ 2 ≤ ({ c with maxOut := 2 } : Config).maxOut ∧
    (let tail : List Byte := [1#8, 0#8, 0#8, 0#8, 0x61#8];
      4 ≤ tail.length ∧ 1 ≤ tail.length - 4 ∧ 1 ≤ ({ c with maxModel := 1 } : Config).maxModel) := by decide +kernel

theorem witness_DestinationSets :
    (Instr.lzDecode, [Dest.out, Dest.outLen, Dest.tokCount]) ∈
      [(Instr.lzEncode, [Dest.out, .outLen, .tokCount]), (.lzDecode, [.out, .outLen, .tokCount])] ∧
    after (exec .lzDecode (withIn [0#8])) State.err = some true ∧
    after (exec .lzDecode (withIn [0#8, 0#8])) State.err = some false := by decide +kernel

theorem witness_UnwrittenInputFaults :
    (let s := { State.reset with inLen := 4096#32 };
      readsIn (.compress true) = true ∧ s.inLen.toNat ≤ s.cfg.maxIn ∧ 4095 < s.inLen.toNat ∧ Memory.read s.inBuf 4095 = none) ∧
    (let s := { withBits [true] with bitsLen := 2#32 };
      readsIn .bitPack = false ∧ s.bitsLen.toNat ≤ s.cfg.maxBits ∧ 1 < s.bitsLen.toNat ∧ Memory.read s.bitsBuf 1 = none) := by
  decide +kernel

theorem witness_CommandsAreFunctionsOfInputs :
    let s := withIn abab
    let s' := { withIn abab with outLen := 5#32, done := true }
    InputsAgree .lzEncode s s' ∧ ∃ t, exec .lzEncode s = .next t :=
  ⟨⟨rfl, fun _ => ⟨rfl, fun _ _ => rfl⟩, fun h => (by cases h), fun h => (by cases h <;> contradiction), fun h => (by cases h)⟩, _, rfl⟩

/-- A CMD write pending on an IDLE block. -/
def cmdPending : State := { State.reset with host := [scriptWR .cmd 0x01#32] }

theorem witness_StatusInvariantKept : cmdPending.StatusInv ∧ ∃ t, step cmdPending = .next t :=
  ⟨by unfold State.StatusInv; decide, _, rfl⟩

theorem witness_BufferInvariantKept : cmdPending.BufferInv ∧ ∃ t, step cmdPending = .next t := by
  refine ⟨⟨by decide, by decide, by decide, by decide, by decide, by decide, by decide, ?_, by decide, ?_, by decide, rfl⟩, _, rfl⟩
  · intro a
    show (none : Option Byte).isSome = true ↔ a < 0
    simp
  · intro a
    show (none : Option Byte).isSome = true ↔ a < 0
    simp

theorem witness_CodebookInvariantKept : cmdPending.CodebookInv ∧ ∃ t, step cmdPending = .next t :=
  ⟨by unfold State.CodebookInv Codebook.Valid; decide, _, rfl⟩

/-- The latched word decodes to one command: what `InputsWritten` asks is what that command asks. -/
theorem inputsWritten_of {s : State} {i : Instr} (hd : decode s.curCmd = .ok i)
    (hin : readsIn i = true → s.inLen.toNat ≤ s.cfg.maxIn → ∀ j, j < s.inLen.toNat → (Memory.read s.inBuf j).isSome = true)
    (hbits : readsIn i = false → s.bitsLen.toNat ≤ s.cfg.maxBits →
      ∀ j, j < s.bitsLen.toNat → (Memory.read s.bitsBuf j).isSome = true) : s.InputsWritten := by
  intro i' h
  rw [hd] at h
  cases h
  exact ⟨hin, hbits⟩

/-- A command that reads IN, with BITS_LEN above what is written in BITS. -/
theorem witness_WaitTerminates_in :
    let s := running (encode .lzEncode) 2 [.wait] { withIn abab with bitsLen := 5#32 };
    s.phase = .busy ∧ s.host = .wait :: [] ∧ s.InputsWritten :=
  ⟨rfl, rfl, inputsWritten_of (i := .lzEncode) (by decide) (by decide +kernel) (by decide)⟩

/-- A command that reads BITS, with IN_LEN above what is written in IN. -/
theorem witness_WaitTerminates_bits :
    let s := running (encode .bitPack) 0 [.wait] { withBits [true] with inLen := 5#32 };
    s.phase = .busy ∧ s.host = .wait :: [] ∧ s.InputsWritten :=
  ⟨rfl, rfl, inputsWritten_of (i := .bitPack) (by decide) (by decide) (by decide +kernel)⟩

/-- A length above the capacity, nothing written. -/
theorem witness_WaitTerminates_too_long :
    let s := running (encode .lzEncode) 1 [.wait] tooLong;
    s.phase = .busy ∧ s.host = .wait :: [] ∧ s.InputsWritten :=
  ⟨rfl, rfl, inputsWritten_of (i := .lzEncode) (by decide) (fun _ h => absurd h (by decide +kernel)) (by decide)⟩

/-- An illegal word, nothing written. -/
theorem witness_WaitTerminates_illegal :
    let s := running 0#32 1 [.wait] { State.reset with inLen := 5#32 };
    s.phase = .busy ∧ s.host = .wait :: [] ∧ s.InputsWritten :=
  ⟨rfl, rfl, fun i h => by
    have : decode 0#32 = .error .reservedOpcode := by decide
    simp [running, this] at h⟩

theorem witness_WaitTerminates_idle :
    let s := { State.reset with host := [.wait] };
    s.phase = .idle ∧ s.host = .wait :: [] := by decide +kernel

end Sys2Proof.Tests
end

section
/-! PROOFS. The codebook table stays a codebook (O58): what each source of a codebook gives (the reset, a codebook text, the tree
builder), and then every step. -/

namespace Sys2Proof.Machine

/-! ## Codebooks -/

theorem Codebook.valid_nil : Codebook.Valid [] := by simp [Codebook.Valid]

/-- A new entry at the end keeps a codebook one when its symbol and its code are new and its code has a legal length. -/
theorem Codebook.Valid.concat {cb : Codebook} {e : Byte × Code} (h : Codebook.Valid cb) (hs : e.1 ∉ cb.map Prod.fst)
    (hc : e.2 ∉ cb.map Prod.snd) (hl : 1 ≤ e.2.length ∧ e.2.length ≤ 255) : Codebook.Valid (cb ++ [e]) := by
  obtain ⟨hsyms, hcodes, hlens⟩ := h
  refine ⟨?_, ?_, ?_⟩
  · rw [List.map_append]
    exact hsyms.append (List.nodup_singleton _) (List.disjoint_singleton.2 hs)
  · rw [List.map_append]
    exact hcodes.append (List.nodup_singleton _) (List.disjoint_singleton.2 hc)
  · intro f hf
    rcases List.mem_append.1 hf with hf | hf
    · exact hlens f hf
    · exact List.mem_singleton.1 hf ▸ hl

/-- 00_scope.md R11: there are 256 symbols. -/
theorem length_le_256_of_nodup {l : List Byte} (h : l.Nodup) : l.length ≤ 256 := by
  have hsub : l.map BitVec.toNat ⊆ List.range 256 := by
    intro n hn
    obtain ⟨b, -, rfl⟩ := List.mem_map.1 hn
    exact List.mem_range.2 b.isLt
  have hnodup : (l.map BitVec.toNat).Nodup := h.map BitVec.toNat_injective
  simpa using (List.subperm_of_subset hnodup hsub).length_le

theorem Codebook.Valid.length_le {cb : Codebook} (h : Codebook.Valid cb) : cb.length ≤ 256 := by
  simpa using length_le_256_of_nodup h.1

/-! ## Frequency tables repeat no symbol -/

theorem FreqTable.mem_symbols_bump {t : FreqTable} {b x : Byte} :
    x ∈ (FreqTable.bump t b).map Prod.fst ↔ x = b ∨ x ∈ t.map Prod.fst := by
  induction t with
  | nil => simp [FreqTable.bump]
  | cons e t ih =>
    by_cases he : e.1 = b
    · simp [FreqTable.bump, he]
    · simp only [FreqTable.bump, if_neg he, List.map_cons, List.mem_cons, ih]
      exact or_left_comm

theorem FreqTable.nodup_bump {t : FreqTable} (h : (t.map Prod.fst).Nodup) (b : Byte) :
    ((FreqTable.bump t b).map Prod.fst).Nodup := by
  induction t with
  | nil => simp [FreqTable.bump]
  | cons e t ih =>
    obtain ⟨hnew, hrest⟩ := List.nodup_cons.1 h
    by_cases he : e.1 = b
    · simpa [FreqTable.bump, he] using h
    · simp only [FreqTable.bump, if_neg he, List.map_cons, List.nodup_cons, FreqTable.mem_symbols_bump]
      exact ⟨not_or.2 ⟨he, hnew⟩, ih hrest⟩

theorem freqOf_nodup (s : List Byte) : ((freqOf s).map Prod.fst).Nodup :=
  List.foldlRecOn s FreqTable.bump (motive := fun t => (t.map Prod.fst).Nodup) List.nodup_nil
    (fun _ h b _ => FreqTable.nodup_bump h b)

@[simp] theorem FreqTable.symbols_update (t : FreqTable) (b : Byte) (g : Nat → Nat) :
    (FreqTable.update t b g).map Prod.fst = t.map Prod.fst := by
  induction t with
  | nil => rfl
  | cons e t ih => by_cases he : e.1 = b <;> simp [FreqTable.update, he, ih]

theorem adaptStep_symbols (t : CtxTable) (f : FreqTable) (w : List Byte × Byte) :
    (adaptStep t f w).map Prod.fst = f.map Prod.fst := by
  unfold adaptStep
  split
  · rfl
  · simp only
    split
    · rfl
    · exact FreqTable.symbols_update ..

/-- 43_context_interface.md R194: ADAPTIVE boosts counts and adds no entry. -/
theorem adaptive_symbols (s : List Byte) (t : CtxTable) (k : Nat) :
    (adaptive s t k).map Prod.fst = (freqOf s).map Prod.fst :=
  List.foldlRecOn (ctxWindows k s) (adaptStep t) (motive := fun f => f.map Prod.fst = (freqOf s).map Prod.fst) rfl
    (fun f h w _ => (adaptStep_symbols t f w).trans h)

theorem FreqTable.firstPerSymbol_nodup (t : FreqTable) (seen : List Byte) :
    ((FreqTable.firstPerSymbol seen t).map Prod.fst).Nodup ∧
      ∀ x ∈ (FreqTable.firstPerSymbol seen t).map Prod.fst, x ∉ seen := by
  induction t generalizing seen with
  | nil => simp [FreqTable.firstPerSymbol]
  | cons e t ih =>
    by_cases he : e.1 ∈ seen
    · simpa [FreqTable.firstPerSymbol, he] using ih seen
    · obtain ⟨hnodup, hnew⟩ := ih (e.1 :: seen)
      simp only [FreqTable.firstPerSymbol, if_neg he, List.map_cons, List.nodup_cons, List.forall_mem_cons]
      exact ⟨⟨fun hm => hnew _ hm List.mem_cons_self, hnodup⟩, he, fun x hx hs => hnew x hx (List.mem_cons_of_mem _ hs)⟩

/-- 43_context_interface.md R191, log 10: the table a collaborator answers repeats no symbol. -/
theorem ctxFn_nodup (c : Config) (tb : List Byte) : ((ctxFn c tb).1.map Prod.fst).Nodup := by
  unfold ctxFn
  split
  · simpa only [adaptive_symbols] using freqOf_nodup tb
  · exact (FreqTable.firstPerSymbol_nodup _ []).1

/-! ## The tree builder loses and repeats no leaf -/

theorem insertByWeight_perm (t : Tree) (ts : List Tree) : (insertByWeight t ts).Perm (t :: ts) := by
  induction ts with
  | nil => exact .refl _
  | cons u us ih =>
    unfold insertByWeight
    split
    · exact .refl _
    · exact (ih.cons u).trans (.swap t u us)

theorem sortByWeight_perm (ts : List Tree) : (sortByWeight ts).Perm ts := by
  induction ts with
  | nil => exact .refl _
  | cons t ts ih => exact (insertByWeight_perm t _).trans (ih.cons t)

theorem mergeNodes_leaves_perm (fuel : Nat) (ts : List Tree) :
    ((mergeNodes fuel ts).flatMap Tree.leaves).Perm (ts.flatMap Tree.leaves) := by
  induction fuel generalizing ts with
  | zero => exact .refl _
  | succ fuel ih =>
    have hsort := (sortByWeight_perm ts).flatMap_right Tree.leaves
    unfold mergeNodes
    split
    next a b rest heq =>
      rw [heq] at hsort
      refine (ih _).trans (.trans ?_ hsort)
      simpa [Tree.leaves] using List.perm_append_comm (l₁ := rest.flatMap Tree.leaves) (l₂ := a.leaves ++ b.leaves)
    · exact hsort

/-- The leaves of a built tree are entries of its table, each at most once. -/
theorem buildTree_leaves_subperm {freq : FreqTable} {t : Tree} (h : buildTree freq = some t) : t.leaves.Subperm freq := by
  have hleaves : (freq.map (fun e => Tree.leaf e.1 e.2)).flatMap Tree.leaves = freq := by
    simp [List.flatMap_map, Tree.leaves]
  have hperm := mergeNodes_leaves_perm freq.length (freq.map (fun e => .leaf e.1 e.2))
  obtain ⟨us, hus⟩ := List.head?_eq_some_iff.1 h
  rw [hleaves, hus, List.flatMap_cons] at hperm
  exact (List.sublist_append_left t.leaves _).subperm.trans hperm.subperm

theorem buildTree_leaves_nodup {freq : FreqTable} {t : Tree} (hn : (freq.map Prod.fst).Nodup) (h : buildTree freq = some t) :
    (t.leaves.map Prod.fst).Nodup := by
  obtain ⟨l, hperm, hsub⟩ := buildTree_leaves_subperm h
  exact (hperm.map Prod.fst).nodup_iff.1 (hn.sublist (hsub.map Prod.fst))

/-! ## The code generator -/

theorem Tree.leaves_length_pos (t : Tree) : 1 ≤ t.leaves.length := by
  induction t with
  | leaf s w => exact Nat.le_refl 1
  | node w l r ihl _ =>
    rw [Tree.leaves, List.length_append]
    omega

/-- 41_prefix_coder.md R134: one code per leaf, in leaf order. -/
theorem codesFrom_symbols (path : Code) (t : Tree) : (codesFrom path t).map Prod.fst = t.leaves.map Prod.fst := by
  induction t generalizing path with
  | leaf s w => rfl
  | node w l r ihl ihr => simp [codesFrom, Tree.leaves, ihl, ihr]

theorem path_prefix_of_mem_codesFrom {path : Code} {t : Tree} {e : Byte × Code} (h : e ∈ codesFrom path t) :
    path <+: e.2 := by
  induction t generalizing path with
  | leaf s w => exact List.mem_singleton.1 h ▸ List.prefix_refl _
  | node w l r ihl ihr =>
    rcases List.mem_append.1 h with h | h
    · exact (List.prefix_append _ _).trans (ihl h)
    · exact (List.prefix_append _ _).trans (ihr h)

/-- 00_scope.md R10: a tree of n leaves is at most n − 1 deep. -/
theorem code_length_lt_of_mem_codesFrom {path : Code} {t : Tree} {e : Byte × Code} (h : e ∈ codesFrom path t) :
    e.2.length < path.length + t.leaves.length := by
  induction t generalizing path with
  | leaf s w => simp [List.mem_singleton.1 h, Tree.leaves]
  | node w l r ihl ihr =>
    have hl := l.leaves_length_pos
    have hr := r.leaves_length_pos
    rw [Tree.leaves, List.length_append]
    rcases List.mem_append.1 h with h | h
    · have := ihl h
      simp only [List.length_append, List.length_singleton] at this
      omega
    · have := ihr h
      simp only [List.length_append, List.length_singleton] at this
      omega

/-- A code below one child of a node is no start of a code below the other. -/
theorem not_prefix_of_branches {path c d : Code} {b : Bool} (hc : path ++ [b] <+: c) (hd : path ++ [!b] <+: d) :
    ¬ c <+: d := by
  intro hcd
  have hlen : (path ++ [b]).length = (path ++ [!b]).length := by simp
  have heq := (List.prefix_of_prefix_length_le (hc.trans hcd) hd hlen.le).eq_of_length hlen
  cases b <;> simp at heq

/-- 41_prefix_coder.md R142: no code of a tree starts another. -/
theorem codesFrom_prefixFree (path : Code) (t : Tree) : Codebook.PrefixFree (codesFrom path t) := by
  induction t generalizing path with
  | leaf s w => exact List.pairwise_singleton _ _
  | node w l r ihl ihr =>
    refine List.pairwise_append.2 ⟨ihl _, ihr _, fun e he f hf => ?_⟩
    have hl := path_prefix_of_mem_codesFrom he
    have hr := path_prefix_of_mem_codesFrom hf
    exact ⟨not_prefix_of_branches hl hr, not_prefix_of_branches hr hl⟩

theorem Codebook.PrefixFree.codes_nodup {cb : Codebook} (h : Codebook.PrefixFree cb) : (cb.map Prod.snd).Nodup := by
  refine List.pairwise_map.2 (h.imp ?_)
  rintro e f ⟨hnot, -⟩ heq
  exact hnot (heq ▸ List.prefix_rfl)

/-- A tree whose leaves repeat no symbol gives a codebook, the one-leaf tree by its own rule (41_prefix_coder.md R135). -/
theorem genCodes_valid {t : Tree} (h : (t.leaves.map Prod.fst).Nodup) : Codebook.Valid (genCodes (some t)) := by
  cases t with
  | leaf s w => simp [genCodes, Codebook.Valid]
  | node w l r =>
    refine ⟨codesFrom_symbols [] _ ▸ h, (codesFrom_prefixFree [] _).codes_nodup, fun e he => ⟨?_, ?_⟩⟩
    · rcases List.mem_append.1 he with he | he <;> exact (path_prefix_of_mem_codesFrom he).length_le
    · have hdepth : e.2.length < 0 + (Tree.node w l r).leaves.length := code_length_lt_of_mem_codesFrom he
      have hcount := length_le_256_of_nodup h
      rw [List.length_map] at hcount
      omega

theorem codebookOf_valid {freq : FreqTable} (h : (freq.map Prod.fst).Nodup) : Codebook.Valid (codebookOf freq) := by
  unfold codebookOf
  cases ht : buildTree freq with
  | none => exact Codebook.valid_nil
  | some t => exact genCodes_valid (buildTree_leaves_nodup h ht)

/-! ## The codebook text parser -/

theorem parseBits_length {t : List Byte} {c : Code} (h : parseBits t = some c) : c.length = t.length := by
  induction t generalizing c with
  | nil => cases h; rfl
  | cons b bs ih =>
    unfold parseBits at h
    split at h
    · cases h
    next d hd =>
      have hlen := ih hd
      split at h
      · cases h; simp [hlen]
      · split at h <;> cases h
        simp [hlen]

/-- 30_encoding.md R82: a parsed code has 1 to 255 bits. -/
theorem parseCode_length {t : List Byte} {c : Code} (h : parseCode t = some c) : 1 ≤ c.length ∧ c.length ≤ 255 := by
  unfold parseCode at h
  split at h
  next hlen => rwa [parseBits_length h]
  · cases h

theorem parseEntry_code_length {t : List Byte} {e : Byte × Code} (h : parseEntry t = some e) :
    1 ≤ e.2.length ∧ e.2.length ≤ 255 := by
  unfold parseEntry at h
  split at h
  · split at h <;> cases h
    exact parseCode_length ‹_›
  · cases h

theorem parseEntries_valid {seen cb : Codebook} {ts : List (List Byte)} (hs : Codebook.Valid seen)
    (h : parseEntries seen ts = .ok cb) : Codebook.Valid cb := by
  induction ts generalizing seen with
  | nil => cases h; exact hs
  | cons t ts ih =>
    unfold parseEntries at h
    split at h
    · cases h
    next e he =>
      split at h
      · cases h
      next hsym =>
        split at h
        · cases h
        next hcode => exact ih (hs.concat hsym hcode (parseEntry_code_length he)) h

/-- 41_prefix_coder.md R137: what CB_PARSE accepts is a codebook. -/
theorem cbParse_valid {t : List Byte} {cb : Codebook} (h : cbParse t = .ok cb) : Codebook.Valid cb := by
  unfold cbParse at h
  split at h
  · cases h; exact Codebook.valid_nil
  · exact parseEntries_valid Codebook.valid_nil h

theorem parseHeader_cb_valid {b : List Byte} {h : Header} (hp : parseHeader b = .ok h) : Codebook.Valid h.cb := by
  simp only [parseHeader, bind_ok, check_eq_ok, Except.ok.injEq] at hp
  obtain ⟨-, -, -, -, -, -, cb, hcb, rfl⟩ := hp
  exact cbParse_valid hcb

/-! ## The codebook of a pipeline -/

theorem compressFn_cb_valid {c : Config} {data : List Byte} {useCtx : Bool} {r : Compressed}
    (h : compressFn c data useCtx = .ok r) : Codebook.Valid r.cb := by
  obtain ⟨bits, -, -, -, -, -, -, rfl⟩ := compressFn_ok.1 h
  cases useCtx with
  | false => exact codebookOf_valid (freqOf_nodup _)
  | true => exact codebookOf_valid (ctxFn_nodup c _)

theorem decompressFn_cb_valid {c : Config} {b : List Byte} {r : Decompressed} (h : decompressFn c b = .ok r) :
    Codebook.Valid r.cb := by
  obtain ⟨hd, bits, q, hp, -, -, -, -, -, rfl⟩ := decompressFn_ok.1 h
  exact parseHeader_cb_valid hp

/-! ## The invariant and the state's updates -/

/-- The invariant speaks of CB and CB_COUNT alone. -/
theorem State.CodebookInv.congr {s t : State} (h : s.CodebookInv) (hcb : t.cb = s.cb) (hn : t.cbCount = s.cbCount) :
    t.CodebookInv := by
  unfold State.CodebookInv
  rwa [hcb, hn]

theorem State.codebookInv_of_empty {t : State} (hcb : t.cb = []) (hn : t.cbCount = 0#9) : t.CodebookInv := by
  unfold State.CodebookInv
  rw [hcb, hn]
  exact ⟨Codebook.valid_nil, rfl⟩

/-- 10_state.md R32: CB_COUNT's nine bits hold the length of any codebook. -/
theorem State.codebookInv_of_valid {t : State} (h : Codebook.Valid t.cb) (hn : t.cbCount = BitVec.ofNat 9 t.cb.length) :
    t.CodebookInv := by
  have hlen := h.length_le
  refine ⟨h, ?_⟩
  rw [hn, BitVec.toNat_ofNat]
  omega

/-- 60_exceptions.md R244: an error clears CB and CB_COUNT together or leaves both. -/
theorem State.CodebookInv.raiseError {s : State} (h : s.CodebookInv) {ds : List Dest} (hds : .cb ∈ ds ↔ .cbCount ∈ ds)
    (e : CmdError) : (s.raiseError ds e).CodebookInv := by
  by_cases hm : Dest.cb ∈ ds
  · exact codebookInv_of_empty (by simp [State.raiseError_cb, hm]) (by simp [State.raiseError_cbCount, hds.1 hm])
  · exact h.congr (by simp [State.raiseError_cb, hm]) (by simp [State.raiseError_cbCount, mt hds.2 hm])

theorem destSet_cb_iff_cbCount (i : Instr) : .cb ∈ destSet i ↔ .cbCount ∈ destSet i := by
  cases i <;> simp [destSet]

theorem State.codebookInv_afterReset (s : State) : s.afterReset.CodebookInv := codebookInv_of_empty rfl rfl

/-! ## Commands -/

/-- A command keeps the invariant when its body does where it succeeds. -/
theorem runCommand_codebookInv {α : Type} {i : Instr} {input : Operand α} {s t : State}
    {body : List α → Except CmdError State} (hs : s.CodebookInv) (hbody : ∀ vs u, body vs = .ok u → u.CodebookInv)
    (h : runCommand (destSet i) input s body = .next t) : t.CodebookInv := by
  rcases runCommand_next h with ⟨vs, u, -, hu, rfl⟩ | ⟨e, rfl⟩
  · exact (hbody vs u hu).congr rfl rfl
  · exact hs.raiseError (destSet_cb_iff_cbCount i) e

/-- Four commands write CB, each a codebook with its length; the others leave both items alone. -/
theorem exec_codebookInv {i : Instr} {s t : State} (hs : s.CodebookInv) (h : exec i s = .next t) : t.CodebookInv := by
  cases i with
  | compress useCtx =>
    refine runCommand_codebookInv hs (fun data u hu => ?_) h
    obtain ⟨r, hr, rfl⟩ := compressBody_ok.1 hu
    exact State.codebookInv_of_valid (compressFn_cb_valid hr) rfl
  | decompress =>
    refine runCommand_codebookInv hs (fun b u hu => ?_) h
    obtain ⟨r, hr, rfl⟩ := decompressBody_ok.1 hu
    exact State.codebookInv_of_valid (decompressFn_cb_valid hr) rfl
  | hufBuild =>
    refine runCommand_codebookInv hs (fun data u hu => ?_) h
    obtain ⟨-, -, rfl⟩ := hufBuildBody_ok.1 hu
    exact State.codebookInv_of_valid (codebookOf_valid (freqOf_nodup data)) rfl
  | cbLoad =>
    refine runCommand_codebookInv hs (fun text u hu => ?_) h
    obtain ⟨cb, hcb, rfl⟩ := cbLoadBody_ok.1 hu
    exact State.codebookInv_of_valid (cbParse_valid hcb) rfl
  | lzEncode =>
    refine runCommand_codebookInv hs (fun data u hu => ?_) h
    obtain ⟨-, rfl⟩ := lzEncodeBody_ok.1 hu
    exact hs.congr rfl rfl
  | lzDecode =>
    refine runCommand_codebookInv hs (fun tb u hu => ?_) h
    obtain ⟨r, -, -, rfl⟩ := lzDecodeBody_ok.1 hu
    exact hs.congr rfl rfl
  | hufEncode =>
    refine runCommand_codebookInv hs (fun data u hu => ?_) h
    obtain ⟨bits, -, -, rfl⟩ := hufEncodeBody_ok.1 hu
    exact hs.congr rfl rfl
  | hufDecode =>
    refine runCommand_codebookInv hs (fun bits u hu => ?_) h
    obtain ⟨-, rfl⟩ := hufDecodeBody_ok.1 hu
    exact hs.congr rfl rfl
  | bitPack =>
    refine runCommand_codebookInv hs (fun bits u hu => ?_) h
    obtain ⟨-, rfl⟩ := bitPackBody_ok.1 hu
    exact hs.congr rfl rfl
  | bitUnpack =>
    refine runCommand_codebookInv hs (fun bytes u hu => ?_) h
    obtain ⟨bits, -, -, rfl⟩ := bitUnpackBody_ok.1 hu
    exact hs.congr rfl rfl

theorem engineStep_codebookInv {s t : State} (hs : s.CodebookInv) (h : engineStep s = .next t) : t.CodebookInv := by
  unfold engineStep at h
  split at h
  · exact exec_codebookInv hs h
  · cases h
    exact hs.raiseError (by simp) _

/-! ## The host and the platform -/

/-- 10_state.md R32, R41: no host write reaches CB or CB_COUNT. -/
theorem State.writeTarget_codebook (s : State) (v : Word) (target : Target) :
    (s.writeTarget v target).cb = s.cb ∧ (s.writeTarget v target).cbCount = s.cbCount := by
  unfold State.writeTarget
  split
  · exact ⟨rfl, rfl⟩
  · cases target with
    | register r => cases r <;> exact ⟨rfl, rfl⟩
    | cell sp addr => cases sp <;> exact ⟨rfl, rfl⟩

theorem hostAccess_codebookInv {s t : State} {a : Access} (hs : s.CodebookInv) (h : hostAccess s a = .next t) :
    t.CodebookInv := by
  cases a with
  | read sp addr n =>
    obtain ⟨target, r, -, -, rfl⟩ := hostAccess_read_next h
    exact hs.congr rfl rfl
  | write sp addr n v =>
    obtain ⟨target, -, rfl⟩ := hostAccess_write_next h
    obtain ⟨hcb, hn⟩ := s.writeTarget_codebook v target
    exact hs.congr hcb hn

theorem hostWait_codebookInv {s : State} (hs : s.CodebookInv) : (hostWait s).CodebookInv := by
  simp only [hostWait]
  split <;> exact hs.congr rfl rfl

theorem hostResetWith_codebookInv {s t : State} {a : Access} (h : hostResetWith s a = .next t) : t.CodebookInv := by
  unfold hostResetWith at h
  split at h
  · exact hostAccess_codebookInv s.codebookInv_afterReset h
  · split at h <;> cases h
    exact State.codebookInv_of_empty rfl rfl

theorem hostStep_codebookInv {s t : State} {op : HostOp} {rest : List HostOp} (hs : s.CodebookInv)
    (h : hostStep s op rest = .next t) : t.CodebookInv := by
  have htake : (s.takeHostOp rest).CodebookInv := hs.congr rfl rfl
  cases op with
  | access a => exact hostAccess_codebookInv htake h
  | wait => cases h; exact hostWait_codebookInv htake
  | dumpOut => cases h; exact htake.congr rfl rfl
  | reset => cases h; exact State.codebookInv_afterReset _
  | resetWith a => exact hostResetWith_codebookInv h

/-! ## The step -/

/-- 70_reset_and_hazards.md R285: a next state comes from the engine's step, from the host's next operation, or from a block at rest. -/
theorem step_next_cases {s t : State} (h : step s = .next t) :
    (s.engineTurn = true ∧ engineStep s = .next t) ∨
    (s.engineTurn = false ∧ s.host = [] ∧ t = s) ∨
    (s.engineTurn = false ∧ ∃ op rest, s.host = op :: rest ∧ hostStep s op rest = .next t) := by
  unfold step at h
  split at h
  · exact .inl ⟨‹_›, h⟩
  next hturn =>
    have hturn := Bool.eq_false_iff.2 hturn
    split at h
    · cases h
      exact .inr (.inl ⟨hturn, ‹_›, rfl⟩)
    · exact .inr (.inr ⟨hturn, _, _, ‹_›, h⟩)

/-- Settles O58: CB changes only by a reset, by an error that clears it with CB_COUNT, and by the four commands that write a
codebook; a tree has at most 256 leaves and so no code beyond 255 bits. -/
theorem codebookInvariantKept : Obligations.CodebookInvariantKept := by
  unfold Obligations.CodebookInvariantKept
  intro s t hs h
  rcases step_next_cases h with ⟨-, h⟩ | ⟨-, -, rfl⟩ | ⟨-, op, rest, -, h⟩
  · exact engineStep_codebookInv hs h
  · exact hs
  · exact hostStep_codebookInv hs h

end Sys2Proof.Machine
end

section
/-! PROOFS. What a step can do, said once for every property of the block: an access of the host, a reset, the outputs of a command
that succeeds, the error that ends one. Then STATUS (O56) and the buffers (O57) stay consistent. -/

namespace Sys2Proof.Machine

/-! ## Moves that leave the block alone -/

theorem State.SameBlock.trans {s t u : State} (h : State.SameBlock s t) (h' : State.SameBlock t u) : State.SameBlock s u := by
  unfold State.SameBlock at *
  simp_all only [and_self]

theorem State.sameBlock_answerRead (s : State) (r : HostReply) : State.SameBlock s (s.answerRead r) := by
  simp [State.SameBlock]

theorem State.sameBlock_answerWrite (s : State) : State.SameBlock s s.answerWrite := by
  simp [State.SameBlock]

theorem State.sameBlock_takeHostOp (s : State) (rest : List HostOp) : State.SameBlock s (s.takeHostOp rest) := by
  simp [State.SameBlock]

theorem sameBlock_hostWait (s : State) : State.SameBlock s (hostWait s) := by
  simp only [hostWait]
  split <;> exact s.sameBlock_answerRead (s.readRegister .status)

theorem sameBlock_hostDumpOut (s : State) : State.SameBlock s (hostDumpOut s) :=
  s.sameBlock_answerRead (s.readRegister .outLen)

/-! ## What an access names -/

/-- 20_memory.md R52, R53: an accepted access names a register, or a cell inside its buffer. -/
theorem portTarget_eq_some {c : Config} {sp : Space} {addr n : Nat} {target : Target}
    (h : portTarget c sp addr n = some target) :
    (∃ r, target = .register r) ∨ (target = .cell sp addr ∧ addr < spaceSize c sp) := by
  unfold portTarget at h
  split at h
  · split at h
    · split at h <;> cases h
      exact .inl ⟨_, rfl⟩
    · cases h
  · split at h <;> cases h
    next hcell => exact .inr ⟨rfl, hcell.2⟩

@[simp] theorem State.busy_eq_false {s : State} : s.busy = false ↔ s.phase = .idle := by
  unfold State.busy
  cases s.phase <;> simp

/-! ## The outputs of a command -/

/-- `u` is `s` with outputs of a command written: each buffer within its capacity, and CTX_VALID only with CTX_PRESENT. -/
inductive State.Outputs (s : State) : State → Prop where
  | unchanged : Outputs s s
  | out {u : State} {bytes : List Byte} (h : Outputs s u) (hlen : bytes.length ≤ u.cfg.maxOut) : Outputs s (u.putOut bytes)
  | bits {u : State} {bits : List Bool} (h : Outputs s u) (hlen : bits.length ≤ u.cfg.maxBits) : Outputs s (u.putBits bits)
  | model {u : State} {model : List Byte} (h : Outputs s u) (hlen : model.length ≤ u.cfg.maxModel) :
      Outputs s (u.putModel model)
  | codebook {u : State} (h : Outputs s u) (cb : Codebook) : Outputs s (u.putCodebook cb)
  | tokCount {u : State} (h : Outputs s u) (n : Nat) : Outputs s (u.putTokCount n)
  | pad {u : State} (h : Outputs s u) (n : Nat) : Outputs s (u.putPad n)
  | trailerFlags {u : State} {present valid : Bool} (h : Outputs s u) (hvalid : valid = true → present = true) :
      Outputs s (u.setTrailerFlags present valid)

/-- 44_container_codec.md R216: what COMPRESS writes fits, the empty model of USE_CTX = 0 included. -/
theorem compressFn_fits {c : Config} {data : List Byte} {useCtx : Bool} {r : Compressed}
    (h : compressFn c data useCtx = .ok r) :
    r.blob.length ≤ c.maxOut ∧ r.bits.length ≤ c.maxBits ∧ r.model.length ≤ c.maxModel := by
  obtain ⟨bits, -, -, -, hbits, hmodel, hblob, rfl⟩ := compressFn_ok.1 h
  refine ⟨hblob, hbits, ?_⟩
  cases useCtx with
  | false => exact Nat.zero_le _
  | true => exact hmodel rfl

/-- 44_container_codec.md R214: the model of a valid trailer fits MODEL. -/
theorem trailerModel_length_le {c : Config} {tail m : List Byte} (h : trailerModel c tail = some m) :
    m.length ≤ c.maxModel := by
  unfold trailerModel at h
  split at h
  · simp only at h
    split at h <;> cases h
    next hm => exact (List.length_take_le _ _).trans hm.2
  · cases h

/-- 44_container_codec.md R217: what DECOMPRESS writes fits, and only a trailer that is present is valid. -/
theorem decompressFn_fits {c : Config} {b : List Byte} {r : Decompressed} (h : decompressFn c b = .ok r) :
    r.out.length ≤ c.maxOut ∧ r.bits.length ≤ c.maxBits ∧ (r.model.getD []).length ≤ c.maxModel ∧
      (r.model.isSome = true → r.present = true) := by
  obtain ⟨hd, bits, q, -, -, hbits, -, -, hout, rfl⟩ := decompressFn_ok.1 h
  refine ⟨hout, hbits, ?_⟩
  cases (findTrailer hd.payload).2 with
  | none => exact ⟨Nat.zero_le _, id⟩
  | some tail =>
    refine ⟨?_, fun _ => rfl⟩
    cases hm : trailerModel c tail with
    | none => simp [hm]
    | some m => simpa [hm] using trailerModel_length_le hm

/-- A command whose body writes outputs where it succeeds ends with them, or with an error. -/
theorem runCommand_outputs {α : Type} {ds : List Dest} {input : Operand α} {s t : State}
    {body : List α → Except CmdError State} (hbody : ∀ vs u, body vs = .ok u → s.Outputs u)
    (h : runCommand ds input s body = .next t) : (∃ u, s.Outputs u ∧ t = u.endDone) ∨ ∃ e, t = s.raiseError ds e :=
  (runCommand_next h).imp_left fun ⟨vs, u, _, hu, ht⟩ => ⟨u, hbody vs u hu, ht⟩

/-- 60_exceptions.md R243: a command that ends has written outputs that fit, or its error has cleared its destination set. -/
theorem exec_next_cases {i : Instr} {s t : State} (h : exec i s = .next t) :
    (∃ u, s.Outputs u ∧ t = u.endDone) ∨ ∃ e, t = s.raiseError (destSet i) e := by
  cases i with
  | compress useCtx =>
    refine runCommand_outputs (fun data u hu => ?_) h
    obtain ⟨r, hr, rfl⟩ := compressBody_ok.1 hu
    obtain ⟨hout, hbits, hmodel⟩ := compressFn_fits hr
    exact (((((State.Outputs.unchanged.out hout).tokCount _).codebook _).bits hbits).pad _).model hmodel
  | decompress =>
    refine runCommand_outputs (fun b u hu => ?_) h
    obtain ⟨r, hr, rfl⟩ := decompressBody_ok.1 hu
    obtain ⟨hout, hbits, hmodel, hflags⟩ := decompressFn_fits hr
    exact ((((((State.Outputs.unchanged.out hout).tokCount _).codebook _).bits hbits).pad _).model hmodel).trailerFlags hflags
  | lzEncode =>
    refine runCommand_outputs (fun data u hu => ?_) h
    obtain ⟨hout, rfl⟩ := lzEncodeBody_ok.1 hu
    exact (State.Outputs.unchanged.out hout).tokCount _
  | lzDecode =>
    refine runCommand_outputs (fun tb u hu => ?_) h
    obtain ⟨r, -, hout, rfl⟩ := lzDecodeBody_ok.1 hu
    exact (State.Outputs.unchanged.out hout).tokCount _
  | hufBuild =>
    refine runCommand_outputs (fun data u hu => ?_) h
    obtain ⟨-, hout, rfl⟩ := hufBuildBody_ok.1 hu
    exact (State.Outputs.unchanged.codebook _).out hout
  | hufEncode =>
    refine runCommand_outputs (fun data u hu => ?_) h
    obtain ⟨bits, -, hbits, rfl⟩ := hufEncodeBody_ok.1 hu
    exact State.Outputs.unchanged.bits hbits
  | hufDecode =>
    refine runCommand_outputs (fun bits u hu => ?_) h
    obtain ⟨hout, rfl⟩ := hufDecodeBody_ok.1 hu
    exact State.Outputs.unchanged.out hout
  | cbLoad =>
    refine runCommand_outputs (fun text u hu => ?_) h
    obtain ⟨cb, -, rfl⟩ := cbLoadBody_ok.1 hu
    exact State.Outputs.unchanged.codebook cb
  | bitPack =>
    refine runCommand_outputs (fun bits u hu => ?_) h
    obtain ⟨hout, rfl⟩ := bitPackBody_ok.1 hu
    exact (State.Outputs.unchanged.out hout).pad _
  | bitUnpack =>
    refine runCommand_outputs (fun bytes u hu => ?_) h
    obtain ⟨bits, -, hbits, rfl⟩ := bitUnpackBody_ok.1 hu
    exact State.Outputs.unchanged.bits hbits

/-! ## From the moves to the step -/

/-- The moves a step is made of keep the property: one field for each. -/
structure KeptByMoves (P : State → Prop) : Prop where
  sameBlock : ∀ {s t : State}, State.SameBlock s t → P s → P t
  afterReset : ∀ {s : State}, P s → P s.afterReset
  writeRegister : ∀ {s : State} (v : Word) (r : Reg), P s → P (s.writeRegister v r)
  writeCell : ∀ {s : State} (v : Word) {sp : Space} {addr : Nat}, addr < spaceSize s.cfg sp → P s → P (s.writeCell v addr sp)
  endDone : ∀ {s u : State}, s.Outputs u → P s → P u.endDone
  raiseError : ∀ {s : State} (i : Instr) (e : CmdError), P s → P (s.raiseError (destSet i) e)
  raiseIllegal : ∀ {s : State}, P s → P s.raiseIllegal

namespace KeptByMoves

variable {P : State → Prop} (hP : KeptByMoves P)
include hP

theorem writeTarget {s : State} (v : Word) {sp : Space} {addr n : Nat} {target : Target}
    (htarget : portTarget s.cfg sp addr n = some target) (hs : P s) : P (s.writeTarget v target) := by
  unfold State.writeTarget
  split
  · exact hs
  · obtain ⟨r, rfl⟩ | ⟨rfl, haddr⟩ := portTarget_eq_some htarget
    · exact hP.writeRegister v r hs
    · exact hP.writeCell v haddr hs

theorem hostAccess_next {s t : State} {a : Access} (hs : P s) (h : hostAccess s a = .next t) : P t := by
  cases a with
  | read sp addr n =>
    obtain ⟨target, r, -, -, rfl⟩ := hostAccess_read_next h
    exact hP.sameBlock (s.sameBlock_answerRead r) hs
  | write sp addr n v =>
    obtain ⟨target, htarget, rfl⟩ := hostAccess_write_next h
    exact hP.sameBlock (State.sameBlock_answerWrite _) (hP.writeTarget v htarget hs)

theorem hostResetWith_next {s t : State} {a : Access} (hs : P s) (h : hostResetWith s a = .next t) : P t := by
  unfold hostResetWith at h
  split at h
  · exact hP.hostAccess_next (hP.afterReset hs) h
  · split at h <;> cases h
    next u hu => exact hP.sameBlock (by simp [State.SameBlock]) (hP.afterReset (hP.hostAccess_next hs hu))

theorem hostStep_next {s t : State} {op : HostOp} {rest : List HostOp} (hs : P s) (h : hostStep s op rest = .next t) : P t := by
  have htake : P (s.takeHostOp rest) := hP.sameBlock (s.sameBlock_takeHostOp rest) hs
  cases op with
  | access a => exact hP.hostAccess_next htake h
  | wait => cases h; exact hP.sameBlock (sameBlock_hostWait _) htake
  | dumpOut => cases h; exact hP.sameBlock (sameBlock_hostDumpOut _) htake
  | reset => cases h; exact hP.afterReset htake
  | resetWith a => exact hP.hostResetWith_next htake h

theorem exec_next {i : Instr} {s t : State} (hs : P s) (h : exec i s = .next t) : P t := by
  obtain ⟨u, hu, rfl⟩ | ⟨e, rfl⟩ := exec_next_cases h
  · exact hP.endDone hu hs
  · exact hP.raiseError i e hs

theorem engineStep_next {s t : State} (hs : P s) (h : engineStep s = .next t) : P t := by
  unfold engineStep at h
  split at h
  · exact hP.exec_next hs h
  · cases h
    exact hP.raiseIllegal hs

theorem step_next {s t : State} (hs : P s) (h : step s = .next t) : P t := by
  rcases step_next_cases h with ⟨-, h⟩ | ⟨-, -, rfl⟩ | ⟨-, op, rest, -, h⟩
  · exact hP.engineStep_next hs h
  · exact hs
  · exact hP.hostStep_next hs h

end KeptByMoves

/-! ## STATUS, ERRCODE and ERRINFO -/

theorem State.endedDone_endDone (u : State) : u.endDone.EndedDone := by simp [State.EndedDone]

theorem State.endedError_raiseError (s : State) (ds : List Dest) (e : CmdError) :
    (s.raiseError ds e).EndedError e.code e.info := by simp [State.EndedError]

theorem State.StatusInv.congr {s t : State} (h : State.SameBlock s t) (hs : s.StatusInv) : t.StatusInv := by
  obtain ⟨-, hphase, -, hdone, herr, hpresent, hvalid, hcode, hinfo, -⟩ := h
  unfold State.StatusInv
  rwa [hphase, hdone, herr, hpresent, hvalid, hcode, hinfo]

/-- 10_state.md R36: a command's start clears all but BUSY. -/
theorem State.statusInv_startCommand (s : State) (v : Word) : (s.startCommand v).StatusInv := by
  simp [State.StatusInv]

theorem State.EndedDone.statusInv {t : State} (h : t.EndedDone) (hflags : t.ctxValid = true → t.ctxPresent = true) :
    t.StatusInv := by
  obtain ⟨hphase, hdone, herr, hcode, hinfo, -⟩ := h
  simpa [State.StatusInv, hphase, hdone, herr, hcode, hinfo] using hflags

theorem State.EndedError.statusInv {t : State} {e : CmdError} (h : t.EndedError e.code e.info) : t.StatusInv := by
  obtain ⟨hphase, hdone, herr, hpresent, hvalid, hcode, -, -⟩ := h
  simpa [State.StatusInv, hphase, hdone, herr, hpresent, hvalid, hcode] using e.code_range

theorem State.Outputs.valid_imp_present {s u : State} (h : s.Outputs u) (hs : s.ctxValid = true → s.ctxPresent = true) :
    u.ctxValid = true → u.ctxPresent = true := by
  induction h with
  | unchanged => exact hs
  | trailerFlags _ hvalid _ => exact hvalid
  | out _ _ ih | bits _ _ ih | model _ _ ih | codebook _ _ ih | tokCount _ _ ih | pad _ _ ih => exact ih

theorem statusInv_keptByMoves : KeptByMoves State.StatusInv where
  sameBlock h hs := hs.congr h
  afterReset _ := by simp [State.StatusInv, State.reset]
  writeRegister {s} v r hs := by
    cases r with
    | cmd => exact s.statusInv_startCommand v
    | _ => exact hs
  writeCell v sp addr _ hs := by cases sp <;> exact hs
  endDone {s u} hu hs := by
    obtain ⟨-, -, hflags, -⟩ := hs
    exact u.endedDone_endDone.statusInv (hu.valid_imp_present hflags)
  raiseError i e _ := (State.endedError_raiseError _ (destSet i) e).statusInv
  raiseIllegal _ := (State.endedError_raiseError _ [] _).statusInv

/-- Settles O56: a command starts with BUSY alone, ends by `endDone` or by an error whose code is 1 to 5, and only DECOMPRESS
writes the trailer flags. -/
theorem statusInvariantKept : Obligations.StatusInvariantKept := by
  unfold Obligations.StatusInvariantKept
  intro s t hs h
  exact statusInv_keptByMoves.step_next hs h

/-! ## The buffers -/

/-- A buffer in canonical form, inside its size. -/
def Memory.Fits {α : Type} (m : List (Nat × α)) (size : Nat) : Prop := Memory.wf m = true ∧ Memory.within m size = true

/-- A buffer in canonical form that holds values exactly below its length register, which does not exceed its capacity. -/
def Memory.Filled {α : Type} (m : List (Nat × α)) (len : Word) (capacity : Nat) : Prop :=
  Memory.wf m = true ∧ (∀ a, (Memory.read m a).isSome = true ↔ a < len.toNat) ∧ len.toNat ≤ capacity

section
variable {α : Type}

theorem Memory.fits_nil (size : Nat) : Memory.Fits ([] : List (Nat × α)) size := ⟨rfl, rfl⟩

theorem Memory.fits_ofList {vs : List α} {size : Nat} (h : vs.length ≤ size) : Memory.Fits (Memory.ofList vs) size :=
  ⟨Memory.wf_ofList vs, Memory.within_ofList h⟩

theorem Memory.Fits.write {m : List (Nat × α)} {size addr : Nat} (h : Memory.Fits m size) (haddr : addr < size) (v : α) :
    Memory.Fits (Memory.write m addr v) size :=
  ⟨Memory.wf_write h.1 addr v, Memory.within_write h.2 haddr v⟩

theorem Memory.filled_nil (capacity : Nat) : Memory.Filled ([] : List (Nat × α)) 0#32 capacity :=
  ⟨rfl, by simp, Nat.zero_le _⟩

/-- 00_scope.md R7: a capacity is below 2^32, so a length register holds every length that fits. -/
theorem Memory.filled_ofList {vs : List α} {capacity : Nat} (h : vs.length ≤ capacity) (hcap : capacity < 2 ^ 32) :
    Memory.Filled (Memory.ofList vs) (BitVec.ofNat 32 vs.length) capacity := by
  have hlen : (BitVec.ofNat 32 vs.length).toNat = vs.length := by
    rw [BitVec.toNat_ofNat, Nat.mod_eq_of_lt (h.trans_lt hcap)]
  refine ⟨Memory.wf_ofList vs, fun a => ?_, hlen.trans_le h⟩
  rw [Memory.ofList_holdsExactly vs a, hlen]
  simp

end

theorem Config.capacities_lt_of_legal {c : Config} (h : c.legal = true) : c.maxOut < 2 ^ 32 ∧ c.maxModel < 2 ^ 32 := by
  simp only [Config.legal, Bool.and_eq_true, decide_eq_true_eq] at h
  omega

/-- The invariant, buffer by buffer. -/
theorem State.bufferInv_iff {s : State} : s.BufferInv ↔
    s.cfg.legal = true ∧ Memory.Fits s.inBuf s.cfg.maxIn ∧ Memory.Fits s.bitsBuf s.cfg.maxBits ∧
    Memory.Filled s.outBuf s.outLen s.cfg.maxOut ∧ Memory.Filled s.modelBuf s.modelLen s.cfg.maxModel ∧ s.tok = [] := by
  unfold State.BufferInv Memory.Fits Memory.Filled
  tauto

theorem State.BufferInv.congr {s t : State} (h : State.SameBlock s t) (hs : s.BufferInv) : t.BufferInv := by
  obtain ⟨hcfg, -, -, -, -, -, -, -, -, -, houtLen, -, -, hmodelLen, -, -, hin, hout, hbits, hmodel, -, htok⟩ := h
  unfold State.BufferInv
  rwa [hcfg, houtLen, hmodelLen, hin, hout, hbits, hmodel, htok]

theorem State.BufferInv.outputs {s u : State} (hu : s.Outputs u) (hs : s.BufferInv) : u.BufferInv := by
  induction hu with
  | unchanged => exact hs
  | out _ hlen ih =>
    obtain ⟨hlegal, hin, hbits, -, hmodel, htok⟩ := State.bufferInv_iff.1 ih
    obtain ⟨hcap, -⟩ := Config.capacities_lt_of_legal hlegal
    exact State.bufferInv_iff.2 ⟨hlegal, hin, hbits, Memory.filled_ofList hlen hcap, hmodel, htok⟩
  | bits _ hlen ih =>
    obtain ⟨hlegal, hin, -, hout, hmodel, htok⟩ := State.bufferInv_iff.1 ih
    exact State.bufferInv_iff.2 ⟨hlegal, hin, Memory.fits_ofList hlen, hout, hmodel, htok⟩
  | model _ hlen ih =>
    obtain ⟨hlegal, hin, hbits, hout, -, htok⟩ := State.bufferInv_iff.1 ih
    obtain ⟨-, hcap⟩ := Config.capacities_lt_of_legal hlegal
    exact State.bufferInv_iff.2 ⟨hlegal, hin, hbits, hout, Memory.filled_ofList hlen hcap, htok⟩
  | codebook _ _ ih | tokCount _ _ ih | pad _ _ ih | trailerFlags _ _ ih => exact ih

/-- 60_exceptions.md R244: an error that clears a buffer with a length register clears both or neither. -/
theorem State.BufferInv.raiseError {s : State} (hs : s.BufferInv) {ds : List Dest} (hout : .out ∈ ds ↔ .outLen ∈ ds)
    (hmodel : .model ∈ ds ↔ .modelLen ∈ ds) (e : CmdError) : (s.raiseError ds e).BufferInv := by
  obtain ⟨hlegal, hinBuf, hbitsBuf, houtBuf, hmodelBuf, -⟩ := State.bufferInv_iff.1 hs
  rw [State.bufferInv_iff]
  simp only [State.raiseError_cfg, State.raiseError_inBuf, State.raiseError_bitsBuf, State.raiseError_outBuf,
    State.raiseError_outLen, State.raiseError_modelBuf, State.raiseError_modelLen, ← hout, ← hmodel]
  refine ⟨hlegal, hinBuf, ?_, ?_, ?_, rfl⟩
  · split
    · exact Memory.fits_nil _
    · exact hbitsBuf
  · split
    · exact Memory.filled_nil _
    · exact houtBuf
  · split
    · exact Memory.filled_nil _
    · exact hmodelBuf

theorem destSet_out_iff_outLen (i : Instr) : .out ∈ destSet i ↔ .outLen ∈ destSet i := by
  cases i <;> simp [destSet]

theorem destSet_model_iff_modelLen (i : Instr) : .model ∈ destSet i ↔ .modelLen ∈ destSet i := by
  cases i <;> simp [destSet]

/-- A block with legal parameters and empty buffers, as a reset leaves it (10_state.md R44). -/
theorem State.bufferInv_afterReset {s : State} (h : s.cfg.legal = true) : s.afterReset.BufferInv :=
  State.bufferInv_iff.2 ⟨h, Memory.fits_nil _, Memory.fits_nil _, Memory.filled_nil _, Memory.filled_nil _, rfl⟩

/-- 20_memory.md R54, R55: the host writes IN and BITS, inside their sizes, and neither OUT nor MODEL. -/
theorem State.BufferInv.writeCell {s : State} (hs : s.BufferInv) (v : Word) {sp : Space} {addr : Nat}
    (haddr : addr < spaceSize s.cfg sp) : (s.writeCell v addr sp).BufferInv := by
  obtain ⟨hlegal, hin, hbits, hout, hmodel, htok⟩ := State.bufferInv_iff.1 hs
  cases sp with
  | inBuf => exact State.bufferInv_iff.2 ⟨hlegal, hin.write haddr _, hbits, hout, hmodel, htok⟩
  | bits => exact State.bufferInv_iff.2 ⟨hlegal, hin, hbits.write haddr _, hout, hmodel, htok⟩
  | outBuf | model | reg => exact hs

theorem bufferInv_keptByMoves : KeptByMoves State.BufferInv where
  sameBlock h hs := hs.congr h
  afterReset hs := State.bufferInv_afterReset hs.1
  writeRegister v r hs := by cases r <;> exact hs
  writeCell v _ _ haddr hs := hs.writeCell v haddr
  endDone hu hs := by
    obtain ⟨hlegal, hin, hbits, hout, hmodel, -⟩ := State.bufferInv_iff.1 (hs.outputs hu)
    exact State.bufferInv_iff.2 ⟨hlegal, hin, hbits, hout, hmodel, rfl⟩
  raiseError i e hs := hs.raiseError (destSet_out_iff_outLen i) (destSet_model_iff_modelLen i) e
  raiseIllegal hs := hs.raiseError (by simp) (by simp) _

/-- Settles O57: the host reaches IN and BITS alone, every output of a command passed its capacity check, and an error clears OUT and
MODEL together with their length registers. -/
theorem bufferInvariantKept : Obligations.BufferInvariantKept := by
  unfold Obligations.BufferInvariantKept
  intro s t hs h
  exact bufferInv_keptByMoves.step_next hs h

end Sys2Proof.Machine
end

section
/-! PROOFS. What reset leaves (O1, O59), the register accesses (O3), a command's start and end (O10), and the fault of a command whose
input has a cell that holds no value (O54). -/

namespace Sys2Proof.Machine

/-! ## Register accesses -/

@[simp] theorem regAt_offset (r : Reg) : regAt r.offset = some r := by cases r <;> rfl

theorem portTarget_register (c : Config) (r : Reg) : portTarget c .reg r.offset 4 = some (.register r) := by
  simp [portTarget]

/-- A read that answers a register's word changes nothing of the block. -/
theorem State.readsWord_of_readRegister {s : State} {r : Reg} {v : Word} (h : s.readRegister r = .word v) :
    s.ReadsWord r.offset v :=
  ⟨s.answerRead (.word v), by simp [hostAccess, portTarget_register, h], rfl, s.sameBlock_answerRead _⟩

/-- 10_state.md R21: while IDLE a register reads its value. -/
theorem State.readsWord_of_idle {s : State} (h : s.phase = .idle) (r : Reg) : s.ReadsWord r.offset (s.regValue r) :=
  State.readsWord_of_readRegister (by simp [State.readRegister, State.busy_eq_false.2 h])

/-- 10_state.md R22, 20_memory.md R56: ID reads its value while BUSY, too. -/
theorem State.readsWord_id (s : State) : s.ReadsWord Reg.id.offset idValue := by
  refine State.readsWord_of_readRegister ?_
  unfold State.readRegister
  split <;> rfl

/-- While IDLE a register write leaves the block as the register's own write says. -/
theorem State.writeLeaves_of_idle {s : State} (h : s.phase = .idle) (r : Reg) (v : Word) :
    s.WriteLeaves r.offset v (s.writeRegister v r) :=
  ⟨(s.writeRegister v r).answerWrite,
    by simp [hostAccess, portTarget_register, State.writeTarget, State.busy_eq_false.2 h],
    State.sameBlock_answerWrite _⟩

/-- What a write leaves may be said by any state with the same block. -/
theorem State.WriteLeaves.congr {s u u' : State} {offset : Nat} {v : Word} (h : s.WriteLeaves offset v u)
    (hu : State.SameBlock u' u) : s.WriteLeaves offset v u' := by
  obtain ⟨t, haccess, ht⟩ := h
  exact ⟨t, haccess, hu.trans ht⟩

/-- 10_state.md R24: the flags of STATUS, bit by bit. -/
theorem State.statusWord_bits (s : State) :
    s.statusWord.getLsbD 0 = s.busy ∧ s.statusWord.getLsbD 1 = s.done ∧ s.statusWord.getLsbD 2 = s.err ∧
    s.statusWord.getLsbD 3 = s.ctxPresent ∧ s.statusWord.getLsbD 4 = s.ctxValid ∧
    ∀ i, 5 ≤ i → s.statusWord.getLsbD i = false := by
  unfold State.statusWord
  refine ⟨?_, ?_, ?_, ?_, ?_, fun i hi => ?high⟩
  case high => rw [BitVec.getLsbD_setWidth, BitVec.getLsbD_of_ge _ _ hi, Bool.and_false]
  all_goals
    simp only [BitVec.getLsbD_setWidth, BitVec.getLsbD_append, BitVec.getLsbD_ofBool]
    simp

/-- Settles O3: every register is read through `regValue` and written through `writeRegister`. -/
theorem registerAccess : Obligations.RegisterAccess := by
  unfold Obligations.RegisterAccess
  refine ⟨State.readsWord_id, fun s h => ?_⟩
  have hread := State.readsWord_of_idle h
  have hwrite := State.writeLeaves_of_idle h
  obtain ⟨hbusy, hflags⟩ := s.statusWord_bits
  rw [State.busy_eq_false.2 h] at hbusy
  simp only [BitVec.ofNat_toNat]
  refine ⟨⟨s.statusWord, hread .status, hbusy, hflags⟩, hread .cmd, hread .errCode, hread .errInfo, hread .inLen,
    hread .outLen, hread .bitsLen, hread .pad, hread .modelLen, hread .cbCount, hread .tokCount,
    fun v => ⟨hwrite .inLen v, hwrite .bitsLen v, ?_⟩⟩
  have hbyte : BitVec.ofNat 8 (v.toNat % 256) = v.setWidth 8 := by
    apply BitVec.eq_of_toNat_eq
    simp
  rw [hbyte]
  exact hwrite .pad v

/-! ## Reset -/

/-- Settles O1: the reset table, item by item. -/
theorem resetLeavesBlock : Obligations.ResetLeavesBlock := by
  unfold Obligations.ResetLeavesBlock State.BlockIsReset
  refine ⟨rfl, by decide, rfl, rfl, rfl, rfl, rfl, rfl, rfl, rfl, rfl, rfl, rfl, fun a => ?_⟩
  exact ⟨rfl, rfl, rfl, rfl, rfl⟩

/-- Settles O59: no flag and no error, empty buffers and codebook, and legal parameters. -/
theorem resetMeetsInvariants : Obligations.ResetMeetsInvariants := by
  unfold Obligations.ResetMeetsInvariants
  refine ⟨?_, ?_, State.codebookInv_of_empty rfl rfl⟩
  · simp [State.StatusInv, State.reset]
  · exact State.bufferInv_afterReset (s := State.reset) (by decide)

/-! ## Start and end of a command -/

/-- 60_exceptions.md R243: both endings leave the phase IDLE and DONE set, with an error code exactly when there is an error. -/
theorem exec_ends {i : Instr} {s t : State} (h : exec i s = .next t) :
    t.phase = .idle ∧ t.done = true ∧ (t.err = true ↔ t.errCode ≠ 0#8) := by
  obtain ⟨u, -, rfl⟩ | ⟨e, rfl⟩ := exec_next_cases h
  · simp
  · simp [e.code_range]

/-- Settles O10: the CMD write is `startCommand`, and a command ends by `endDone` or by an error, whose code is not 0. -/
theorem commandStartAndEnd : Obligations.CommandStartAndEnd := by
  unfold Obligations.CommandStartAndEnd
  refine ⟨fun s v h => ?_, fun i s t h => exec_ends h⟩
  exact (State.writeLeaves_of_idle h .cmd v).congr (by simp [State.SameBlock, State.writeRegister])

/-! ## An input cell that holds no value -/

/-- 30_encoding.md R74: a command over IN runs its body on IN[0 : IN_LEN]. -/
theorem exec_of_readsIn {i : Instr} (h : readsIn i = true) (s : State) :
    ∃ body, exec i s = runCommand (destSet i) s.inOperand s body := by
  cases i with
  | hufDecode | bitPack => cases h
  | _ => exact ⟨_, rfl⟩

/-- 30_encoding.md R74: HUF_DECODE and BIT_PACK run their body on BITS[0 : BITS_LEN]. -/
theorem exec_of_readsBits {i : Instr} (h : readsIn i = false) (s : State) :
    ∃ body, exec i s = runCommand (destSet i) s.bitsOperand s body := by
  cases i with
  | hufDecode | bitPack => exact ⟨_, rfl⟩
  | _ => cases h

/-- A range with a cell that holds no value cannot be read. -/
theorem Memory.readRange_of_unwritten {α : Type} {m : List (Nat × α)} {n : Nat}
    (h : ∃ j, j < n ∧ Memory.read m j = none) :
    ∃ a, Memory.readRange m 0 n = .error a ∧ a < n ∧ Memory.read m a = none := by
  cases hr : Memory.readRange m 0 n with
  | error a =>
    obtain ⟨-, hlt, hnone⟩ := Memory.readRange_error hr
    exact ⟨a, rfl, by omega, hnone⟩
  | ok vs =>
    obtain ⟨j, hj, hnone⟩ := h
    obtain ⟨hlen, hcells⟩ := Memory.readRange_ok hr
    have hcell := hcells j hj
    rw [Nat.zero_add, hnone, eq_comm, List.getElem?_eq_none_iff] at hcell
    omega

/-- 10_state.md R45: the fault of the IN range. -/
theorem State.inOperand_unwritten {s : State} (hlen : s.inLen.toNat ≤ s.cfg.maxIn)
    (h : ∃ j, j < s.inLen.toNat ∧ Memory.read s.inBuf j = none) :
    ∃ a, s.inOperand = .unwritten .inBuf a ∧ a < s.inLen.toNat ∧ Memory.read s.inBuf a = none := by
  obtain ⟨a, hr, ha⟩ := Memory.readRange_of_unwritten h
  exact ⟨a, by simp [State.inOperand, hr, Nat.not_lt.2 hlen], ha⟩

/-- 10_state.md R45: the fault of the BITS range. -/
theorem State.bitsOperand_unwritten {s : State} (hlen : s.bitsLen.toNat ≤ s.cfg.maxBits)
    (h : ∃ j, j < s.bitsLen.toNat ∧ Memory.read s.bitsBuf j = none) :
    ∃ a, s.bitsOperand = .unwritten .bits a ∧ a < s.bitsLen.toNat ∧ Memory.read s.bitsBuf a = none := by
  obtain ⟨a, hr, ha⟩ := Memory.readRange_of_unwritten h
  exact ⟨a, by simp [State.bitsOperand, hr, Nat.not_lt.2 hlen], ha⟩

/-- A command whose input has a cell that holds no value stops with the fault. -/
theorem runCommand_unwritten {α : Type} {ds : List Dest} {input : Operand α} {s : State}
    {body : List α → Except CmdError State} {sp : Space} {a : Nat} (hi : input = .unwritten sp a) :
    runCommand ds input s body = .fault (.unwrittenCell sp a) := by
  simp [runCommand, hi]

/-- Settles O54: the operand read comes first in every command, and names the first cell of the range that holds no value. -/
theorem unwrittenInputFaults : Obligations.UnwrittenInputFaults := by
  unfold Obligations.UnwrittenInputFaults
  refine fun i s => ⟨fun hi hlen h => ?_, fun hi hlen h => ?_⟩
  · obtain ⟨body, hexec⟩ := exec_of_readsIn hi s
    obtain ⟨a, hop, ha⟩ := State.inOperand_unwritten hlen h
    exact ⟨a, hexec.trans (runCommand_unwritten hop), ha⟩
  · obtain ⟨body, hexec⟩ := exec_of_readsBits hi s
    obtain ⟨a, hop, ha⟩ := State.bitsOperand_unwritten hlen h
    exact ⟨a, hexec.trans (runCommand_unwritten hop), ha⟩

end Sys2Proof.Machine
end

section
/-! PROOFS. The host port: which accesses are bus errors (O5, O6), writes that change nothing (O4), the buffers while IDLE (O7),
accesses while BUSY (O8), and the one access that starts a command (O9). -/

namespace Sys2Proof.Machine

/-! ## What an access names -/

/-- 20_memory.md R52: no register stands at 0x30 or above. -/
theorem regAt_eq_none {addr : Nat} (h : 0x30 ≤ addr) : regAt addr = none := by
  simp (disch := omega) only [regAt, if_neg]

theorem lt_of_regAt {addr : Nat} {r : Reg} (h : regAt addr = some r) : addr < 0x30 := by
  by_contra hge
  simp [regAt_eq_none (Nat.le_of_not_lt hge)] at h

/-- 10_state.md R21: the register at an offset has that offset. -/
theorem offset_of_regAt {addr : Nat} {r : Reg} (h : regAt addr = some r) : r.offset = addr := by
  have hmap : ∀ a < 0x30, ∀ r ∈ regAt a, r.offset = a := by decide
  exact hmap addr (lt_of_regAt h) r h

/-- 10_state.md R21: the registers stand at the multiples of 4 below 0x30. -/
theorem regAt_isSome_iff {addr : Nat} : (regAt addr).isSome = true ↔ addr % 4 = 0 ∧ addr < 0x30 := by
  have hmap : ∀ a < 0x30, (regAt a).isSome = true ↔ a % 4 = 0 := by decide
  constructor
  · intro h
    obtain ⟨r, hr⟩ := Option.isSome_iff_exists.1 h
    have hlt := lt_of_regAt hr
    exact ⟨(hmap addr hlt).1 h, hlt⟩
  · rintro ⟨haligned, hlt⟩
    exact (hmap addr hlt).2 haligned

theorem portTarget_eq_register {c : Config} {sp : Space} {addr n : Nat} {r : Reg} :
    portTarget c sp addr n = some (.register r) ↔ sp = .reg ∧ addr = r.offset ∧ n = 4 := by
  constructor
  · intro h
    unfold portTarget at h
    split at h
    · split_ifs at h with hn
      split at h <;> cases h
      exact ⟨rfl, (offset_of_regAt ‹_›).symm, hn⟩
    · split_ifs at h
      cases h
  · rintro ⟨rfl, rfl, rfl⟩
    exact portTarget_register c r

/-- 20_memory.md R52: an aligned REG access of four bytes below 0x30 names a register. -/
theorem portTarget_reg_of_aligned (c : Config) {addr : Nat} (h : addr % 4 = 0 ∧ addr < 0x30) :
    ∃ r, portTarget c .reg addr 4 = some (.register r) := by
  obtain ⟨r, hr⟩ := Option.isSome_iff_exists.1 (regAt_isSome_iff.2 h)
  exact ⟨r, portTarget_eq_register.2 ⟨rfl, (offset_of_regAt hr).symm, rfl⟩⟩

/-- 20_memory.md R52: any other REG access names nothing. -/
theorem portTarget_reg_eq_none (c : Config) {addr n : Nat} (h : ¬ (n = 4 ∧ addr % 4 = 0 ∧ addr < 0x30)) :
    portTarget c .reg addr n = none := by
  rw [← regAt_isSome_iff] at h
  by_cases hn : n = 4
  · have hnone : regAt addr = none := by simpa [hn] using h
    simp [portTarget, hnone]
  · simp [portTarget, hn]

/-- 20_memory.md R53: a buffer access names its cell or nothing. -/
theorem portTarget_buffer {sp : Space} (hsp : sp ≠ .reg) (c : Config) (addr n : Nat) :
    portTarget c sp addr n = if n = 1 ∧ addr < spaceSize c sp then some (.cell sp addr) else none := by
  cases sp with
  | reg => exact absurd rfl hsp
  | inBuf | outBuf | bits | model => rfl

theorem portTarget_cell {c : Config} {sp : Space} {addr : Nat} (hsp : sp ≠ .reg) (h : addr < spaceSize c sp) :
    portTarget c sp addr 1 = some (.cell sp addr) := by
  simp [portTarget_buffer hsp, h]

/-- 20_memory.md R51: the buffer spaces with their sizes. -/
theorem spaceSize_of_mem {c : Config} {sp : Space} {size : Nat}
    (h : (sp, size) ∈ [(Space.inBuf, c.maxIn), (Space.outBuf, c.maxOut), (Space.bits, c.maxBits), (Space.model, c.maxModel)]) :
    sp ≠ .reg ∧ size = spaceSize c sp := by
  simp only [List.mem_cons, Prod.mk.injEq, List.not_mem_nil, or_false] at h
  obtain ⟨rfl, rfl⟩ | ⟨rfl, rfl⟩ | ⟨rfl, rfl⟩ | ⟨rfl, rfl⟩ := h <;> exact ⟨by decide, rfl⟩

/-! ## What an access does, by its target -/

section
variable {s : State} {sp : Space} {addr n : Nat} {target : Target}

theorem hostAccess_read_answers (h : portTarget s.cfg sp addr n = some target) {r : HostReply}
    (hr : s.readTarget target = some r) : hostAccess s (.read sp addr n) = .next (s.answerRead r) := by
  simp [hostAccess, h, hr]

theorem hostAccess_read_unwritten (h : portTarget s.cfg sp addr n = some target) (hr : s.readTarget target = none) :
    hostAccess s (.read sp addr n) = .fault (.unwrittenCell sp addr) := by
  simp [hostAccess, h, hr]

theorem hostAccess_write_accepted (h : portTarget s.cfg sp addr n = some target) (v : Word) :
    hostAccess s (.write sp addr n v) = .next (s.writeTarget v target).answerWrite := by
  simp [hostAccess, h]

theorem hostAccess_busError (h : portTarget s.cfg sp addr n = none) (v : Word) :
    hostAccess s (.read sp addr n) = .fault (.busError sp addr n) ∧
      hostAccess s (.write sp addr n v) = .fault (.busError sp addr n) := by
  simp [hostAccess, h]

/-- A read of something the port names is no bus error. -/
theorem hostAccess_read_ne_busError (h : portTarget s.cfg sp addr n = some target) (sp' : Space) (addr' n' : Nat) :
    hostAccess s (.read sp addr n) ≠ .fault (.busError sp' addr' n') := by
  cases hr : s.readTarget target with
  | none => simp [hostAccess_read_unwritten h hr]
  | some r => simp [hostAccess_read_answers h hr]

/-- A write that its target ignores is accepted and leaves the block as it was. -/
theorem hostAccess_write_ignored (h : portTarget s.cfg sp addr n = some target) {v : Word}
    (hv : s.writeTarget v target = s) : ∃ t, hostAccess s (.write sp addr n v) = .next t ∧ State.SameBlock s t := by
  refine ⟨s.answerWrite, ?_, s.sameBlock_answerWrite⟩
  rw [hostAccess_write_accepted h, hv]

end

/-! ## Bus errors -/

/-- Settles O5: a REG access is accepted when it names a register, and every register read answers. -/
theorem regBusErrors : Obligations.RegBusErrors := by
  unfold Obligations.RegBusErrors
  intro s addr n v
  split
  next h =>
    obtain ⟨rfl, haddr⟩ := h
    obtain ⟨r, hr⟩ := portTarget_reg_of_aligned s.cfg haddr
    exact ⟨⟨_, hostAccess_read_answers hr (s.readTarget_register r)⟩, ⟨_, hostAccess_write_accepted hr v⟩⟩
  next h => exact hostAccess_busError (portTarget_reg_eq_none s.cfg h) v

/-- Settles O6: a buffer access is accepted when it names a cell. -/
theorem bufferBusErrors : Obligations.BufferBusErrors := by
  unfold Obligations.BufferBusErrors
  intro s sp size hmem addr n v
  obtain ⟨hsp, rfl⟩ := spaceSize_of_mem hmem
  have htarget := portTarget_buffer hsp s.cfg addr n
  split
  next h =>
    rw [if_pos h] at htarget
    exact ⟨hostAccess_read_ne_busError htarget, ⟨_, hostAccess_write_accepted htarget v⟩⟩
  next h =>
    rw [if_neg h] at htarget
    exact hostAccess_busError htarget v

/-! ## Writes -/

section
variable {s : State} (v : Word)

@[simp] theorem State.busy_eq_true : s.busy = true ↔ s.phase = .busy := by
  simp [State.busy]

/-- 20_memory.md R56: a write while BUSY is ignored. -/
theorem State.writeTarget_of_busy (h : s.phase = .busy) (target : Target) : s.writeTarget v target = s := by
  simp [State.writeTarget, h]

theorem State.writeTarget_register_of_idle (h : s.phase = .idle) (r : Reg) :
    s.writeTarget v (.register r) = s.writeRegister v r := by
  simp [State.writeTarget, State.busy_eq_false.2 h]

theorem State.writeTarget_cell_of_idle (h : s.phase = .idle) (sp : Space) (addr : Nat) :
    s.writeTarget v (.cell sp addr) = s.writeCell v addr sp := by
  simp [State.writeTarget, State.busy_eq_false.2 h]

/-- A target that ignores a write while IDLE ignores it in every phase. -/
theorem State.writeTarget_ignored {target : Target} (h : s.phase = .idle → s.writeTarget v target = s) :
    s.writeTarget v target = s := by
  cases hphase : s.phase with
  | idle => exact h hphase
  | busy => exact State.writeTarget_of_busy v hphase target

/-- 10_state.md R21: the read-only registers. -/
theorem State.writeRegister_readOnly :
    ∀ r ∈ [Reg.id, .status, .errCode, .errInfo, .outLen, .modelLen, .cbCount, .tokCount], s.writeRegister v r = s := by
  simp [State.writeRegister]

end

/-- 20_memory.md R54, R56: CMD reads 0 in every phase. -/
theorem State.readsWord_cmd (s : State) : s.ReadsWord Reg.cmd.offset 0#32 := by
  refine State.readsWord_of_readRegister ?_
  unfold State.readRegister
  split <;> rfl

/-- Settles O4: the write of a read-only register, and that of an OUT or MODEL cell, is the identity on the state. -/
theorem readOnlyWritesIgnored : Obligations.ReadOnlyWritesIgnored := by
  unfold Obligations.ReadOnlyWritesIgnored
  refine fun s v => ⟨?_, fun a ha => ?_, fun a ha => ?_, s.readsWord_cmd⟩
  · change ∀ offset ∈ [Reg.id, .status, .errCode, .errInfo, .outLen, .modelLen, .cbCount, .tokCount].map Reg.offset, _
    refine List.forall_mem_map.2 fun r hr => ?_
    have hkeep := State.writeTarget_ignored v fun (hs : s.phase = .idle) =>
      (State.writeTarget_register_of_idle v hs r).trans (State.writeRegister_readOnly v r hr)
    exact hostAccess_write_ignored (portTarget_register _ r) hkeep
  · have hkeep := State.writeTarget_ignored v fun (hs : s.phase = .idle) => State.writeTarget_cell_of_idle v hs .outBuf a
    exact hostAccess_write_ignored (portTarget_cell (by decide) ha) hkeep
  · have hkeep := State.writeTarget_ignored v fun (hs : s.phase = .idle) => State.writeTarget_cell_of_idle v hs .model a
    exact hostAccess_write_ignored (portTarget_cell (by decide) ha) hkeep

/-! ## Buffer cells -/

section
variable {s : State} (sp : Space) {addr : Nat} (hsp : sp ≠ .reg) (haddr : addr < spaceSize s.cfg sp)
include hsp haddr

/-- 10_state.md R45, 20_memory.md R56: a cell at or beyond its length register, and every cell while BUSY, reads UNSPEC. -/
theorem hostAccess_read_cell_unspec (h : s.busy = true ∨ s.beyondLength sp addr = true) :
    ∃ t v, hostAccess s (.read sp addr 1) = .next t ∧ t.reply = .unspecByte v :=
  ⟨_, (s.unspec sp addr).setWidth 8, hostAccess_read_answers (portTarget_cell hsp haddr)
    (by simp only [State.readTarget, State.readCell, Bool.or_eq_true, h, if_true]), rfl⟩

/-- 20_memory.md R55: a cell that holds a value answers it while IDLE. -/
theorem hostAccess_read_cell_value (h : s.phase = .idle) (hlen : s.beyondLength sp addr = false) {b : Byte}
    (hb : s.cellValue sp addr = some b) : ∃ t, hostAccess s (.read sp addr 1) = .next t ∧ t.reply = .byte b :=
  ⟨_, hostAccess_read_answers (portTarget_cell hsp haddr)
    (by simp [State.readTarget, State.readCell, State.busy_eq_false.2 h, hlen, hb]), rfl⟩

/-- 60_exceptions.md R242: a cell below its length register that holds no value faults while IDLE. -/
theorem hostAccess_read_cell_unwritten (h : s.phase = .idle) (hlen : s.beyondLength sp addr = false)
    (hb : s.cellValue sp addr = none) : hostAccess s (.read sp addr 1) = .fault (.unwrittenCell sp addr) :=
  hostAccess_read_unwritten (portTarget_cell hsp haddr)
    (State.readCell_eq_none.2 ⟨State.busy_eq_false.2 h, hlen, hb⟩)

theorem hostAccess_write_cell (h : s.phase = .idle) (v : Word) :
    hostAccess s (.write sp addr 1 v) = .next (s.writeCell v addr sp).answerWrite := by
  rw [hostAccess_write_accepted (portTarget_cell hsp haddr), State.writeTarget_cell_of_idle v h]

end

/-- A write reaches its own cell and no other. -/
theorem Memory.write_cell {α : Type} (m : List (Nat × α)) (a : Nat) (v : α) :
    Memory.read (Memory.write m a v) a = some v ∧
      ∀ b, b ≠ a → Memory.read (Memory.write m a v) b = Memory.read m b := by
  simp +contextual [Memory.read_write, eq_comm]

/-- Settles O7: an IN or BITS write is one `Memory.write`, and a read answers by `readCell`: UNSPEC beyond the length, else the
cell's value, else the fault. -/
theorem idleBufferAccess : Obligations.IdleBufferAccess := by
  unfold Obligations.IdleBufferAccess
  intro s h
  have hbelow {len : Word} {a : Nat} (hlt : a < len.toNat) : decide (len.toNat ≤ a) = false := decide_eq_false hlt.not_ge
  refine ⟨fun a v ha => ?_, fun a v ha => ?_,
    fun a b ha hb => hostAccess_read_cell_value .inBuf (by decide) ha h rfl hb,
    fun a b ha hlt hb => hostAccess_read_cell_value .outBuf (by decide) ha h (hbelow hlt) hb,
    fun a b ha hlt hb => hostAccess_read_cell_value .bits (by decide) ha h (hbelow hlt) (congrArg (Option.map bitByte) hb),
    fun a b ha hlt hb => hostAccess_read_cell_value .model (by decide) ha h (hbelow hlt) hb,
    fun sp a len size hmem hle ha => ?_,
    fun a ha hb => hostAccess_read_cell_unwritten .inBuf (by decide) ha h rfl hb,
    fun a ha hlt hb => hostAccess_read_cell_unwritten .outBuf (by decide) ha h (hbelow hlt) hb,
    fun a ha hlt hb => hostAccess_read_cell_unwritten .bits (by decide) ha h (hbelow hlt) (congrArg (Option.map bitByte) hb),
    fun a ha hlt hb => hostAccess_read_cell_unwritten .model (by decide) ha h (hbelow hlt) hb⟩
  · obtain ⟨hsame, hother⟩ := Memory.write_cell s.inBuf a (v.setWidth 8)
    have hbyte : v.setWidth 8 = BitVec.ofNat 8 (v.toNat % 256) := by
      apply BitVec.eq_of_toNat_eq
      simp
    exact ⟨_, hostAccess_write_cell .inBuf (by decide) ha h v, hsame.trans (congrArg some hbyte), hother,
      State.sameBlock_answerWrite _⟩
  · obtain ⟨hsame, hother⟩ := Memory.write_cell s.bitsBuf a (v.getLsbD 0)
    exact ⟨_, hostAccess_write_cell .bits (by decide) ha h v, hsame, hother, State.sameBlock_answerWrite _⟩
  · simp only [List.mem_cons, Prod.mk.injEq, List.not_mem_nil, or_false] at hmem
    obtain ⟨rfl, rfl, rfl⟩ | ⟨rfl, rfl, rfl⟩ | ⟨rfl, rfl, rfl⟩ := hmem <;>
      exact hostAccess_read_cell_unspec _ (by decide) ha (.inr (decide_eq_true hle))

/-! ## While BUSY -/

section
variable {s : State} (h : s.phase = .busy)
include h

/-- 20_memory.md R56: while BUSY, STATUS reads its current value, ERRCODE and ERRINFO read 0. -/
theorem State.readRegister_of_busy :
    s.readRegister .status = .word s.statusWord ∧ s.readRegister .errCode = .word 0#32 ∧
      s.readRegister .errInfo = .word 0#32 := by
  simp [State.readRegister, State.regValue, h]

/-- 20_memory.md R56: every other register reads UNSPEC while BUSY. -/
theorem State.readRegister_unspec_of_busy :
    ∀ r ∈ [Reg.inLen, .outLen, .bitsLen, .pad, .modelLen, .cbCount, .tokCount],
      s.readRegister r = .unspecWord (s.unspec .reg r.offset) := by
  simp [State.readRegister, h]

/-- 20_memory.md R56: no access while BUSY disturbs the block. -/
theorem hostAccess_sameBlock_of_busy {t : State} {a : Access} (hnext : hostAccess s a = .next t) : State.SameBlock s t := by
  cases a with
  | read sp addr n =>
    obtain ⟨target, r, -, -, rfl⟩ := hostAccess_read_next hnext
    exact s.sameBlock_answerRead r
  | write sp addr n v =>
    obtain ⟨target, -, rfl⟩ := hostAccess_write_next hnext
    rw [State.writeTarget_of_busy v h]
    exact s.sameBlock_answerWrite

end

/-- Settles O8: while BUSY a write is the identity on the block, and a read answers by `readRegister`'s table or UNSPEC. -/
theorem busyAccesses : Obligations.BusyAccesses := by
  unfold Obligations.BusyAccesses
  intro s h
  obtain ⟨hstatus, herrCode, herrInfo⟩ := State.readRegister_of_busy h
  obtain ⟨hbusy, hflags⟩ := s.statusWord_bits
  rw [State.busy_eq_true.2 h] at hbusy
  refine ⟨fun sp addr n v t hnext => hostAccess_sameBlock_of_busy h hnext, s.readsWord_id,
    ⟨s.statusWord, State.readsWord_of_readRegister hstatus, hbusy, hflags⟩, s.readsWord_cmd,
    State.readsWord_of_readRegister herrCode, State.readsWord_of_readRegister herrInfo, ?_, fun sp addr size hmem ha => ?_⟩
  · change ∀ offset ∈ [Reg.inLen, .outLen, .bitsLen, .pad, .modelLen, .cbCount, .tokCount].map Reg.offset, _
    refine List.forall_mem_map.2 fun r hr => ?_
    have hread := State.readRegister_unspec_of_busy h r hr
    exact ⟨_, _, hostAccess_read_answers (portTarget_register _ r) (s.readTarget_register r), hread⟩
  · obtain ⟨hsp, rfl⟩ := spaceSize_of_mem hmem
    exact hostAccess_read_cell_unspec sp hsp ha (.inl (State.busy_eq_true.2 h))

/-! ## The start of a command -/

theorem State.SameBlock.phase_eq {s t : State} (h : State.SameBlock s t) : t.phase = s.phase := by
  obtain ⟨-, hphase, -⟩ := h
  exact hphase

/-- 20_memory.md R59: a read while IDLE changes the last answer alone, and no read depends on it. -/
theorem State.readTarget_answerRead_of_idle {s : State} (h : s.phase = .idle) (r : HostReply) (target : Target) :
    (s.answerRead r).readTarget target = s.readTarget target := by
  have hreply : s.answerRead r = { s with reply := r } := by simp [State.answerRead, State.busy_eq_false.2 h]
  rw [hreply]
  cases target <;> rfl

/-- 20_memory.md R59: reading again while IDLE gives the same answer. -/
theorem hostAccess_read_again {s t : State} {sp : Space} {addr n : Nat} (hs : s.phase = .idle)
    (h : hostAccess s (.read sp addr n) = .next t) :
    ∃ u, hostAccess t (.read sp addr n) = .next u ∧ u.reply = t.reply := by
  obtain ⟨target, r, htarget, hr, rfl⟩ := hostAccess_read_next h
  have hagain := (State.readTarget_answerRead_of_idle hs r target).trans hr
  exact ⟨_, hostAccess_read_answers (s := s.answerRead r) htarget hagain, rfl⟩

/-- 10_state.md R36: of all registers, only CMD's write moves the phase. -/
theorem State.writeRegister_phase {s : State} {r : Reg} (h : r ≠ .cmd) (v : Word) :
    (s.writeRegister v r).phase = s.phase := by
  cases r with
  | cmd => exact absurd rfl h
  | _ => rfl

/-- 10_state.md R36: of all targets, only the register CMD makes an IDLE block BUSY. -/
theorem State.target_of_writeTarget_busy {s : State} {v : Word} {target : Target} (hs : s.phase = .idle)
    (h : (s.writeTarget v target).phase = .busy) : target = .register .cmd := by
  cases target with
  | register r =>
    by_contra hr
    have hkeep := State.writeRegister_phase (s := s) (mt (congrArg Target.register) hr) v
    simp [State.writeTarget_register_of_idle v hs, hkeep, hs] at h
  | cell sp addr =>
    have hkeep : (s.writeCell v addr sp).phase = s.phase := by cases sp <;> rfl
    simp [State.writeTarget_cell_of_idle v hs, hkeep, hs] at h

/-- An access that makes an IDLE block BUSY is a write to CMD. -/
theorem hostAccess_starts {s t : State} {a : Access} (hs : s.phase = .idle) (h : hostAccess s a = .next t)
    (ht : t.phase = .busy) : ∃ v, a = .write .reg 0x04 4 v := by
  cases a with
  | read sp addr n =>
    obtain ⟨target, r, -, -, rfl⟩ := hostAccess_read_next h
    simp [hs] at ht
  | write sp addr n v =>
    obtain ⟨target, htarget, rfl⟩ := hostAccess_write_next h
    obtain rfl := State.target_of_writeTarget_busy hs ht
    obtain ⟨rfl, rfl, rfl⟩ := portTarget_eq_register.1 htarget
    exact ⟨v, rfl⟩

/-- 70_reset_and_hazards.md R271: beside a reset, an access starts a command only after it. -/
theorem hostResetWith_starts {s t : State} {a : Access} (h : hostResetWith s a = .next t) (ht : t.phase = .busy) :
    ∃ v, a = .write .reg 0x04 4 v := by
  unfold hostResetWith at h
  split at h
  · exact hostAccess_starts (State.afterReset_phase s) h ht
  · split at h <;> cases h
    cases ht

/-- A host step that makes an IDLE block BUSY is a write to CMD, alone or beside a reset. -/
theorem hostStep_starts {s t : State} {op : HostOp} {rest : List HostOp} (hs : s.phase = .idle)
    (h : hostStep s op rest = .next t) (ht : t.phase = .busy) :
    ∃ v, op = .access (.write .reg 0x04 4 v) ∨ op = .resetWith (.write .reg 0x04 4 v) := by
  cases op with
  | access a =>
    obtain ⟨v, rfl⟩ := hostAccess_starts (s := s.takeHostOp rest) hs h ht
    exact ⟨v, .inl rfl⟩
  | wait =>
    cases h
    simp [(sameBlock_hostWait _).phase_eq, hs] at ht
  | dumpOut =>
    cases h
    simp [(sameBlock_hostDumpOut _).phase_eq, hs] at ht
  | reset =>
    cases h
    cases ht
  | resetWith a =>
    obtain ⟨v, rfl⟩ := hostResetWith_starts h ht
    exact ⟨v, .inr rfl⟩

/-- 70_reset_and_hazards.md R285: a host step while BUSY that is no reset leaves the block as it was. -/
theorem hostStep_sameBlock_of_busy {s t : State} {op : HostOp} {rest : List HostOp} (hs : s.phase = .busy)
    (hreset : op ≠ .reset) (hresetWith : ∀ a, op ≠ .resetWith a) (h : hostStep s op rest = .next t) :
    State.SameBlock s t := by
  refine (s.sameBlock_takeHostOp rest).trans ?_
  cases op with
  | access a => exact hostAccess_sameBlock_of_busy (s := s.takeHostOp rest) hs h
  | wait => cases h; exact sameBlock_hostWait _
  | dumpOut => cases h; exact sameBlock_hostDumpOut _
  | reset => exact absurd rfl hreset
  | resetWith a => exact absurd rfl (hresetWith a)

/-- Settles O9: a read changes the answer alone, of the host's operations only a CMD write sets BUSY, and while BUSY the others
leave the block alone. -/
theorem onlyCmdWriteStartsCommand : Obligations.OnlyCmdWriteStartsCommand := by
  unfold Obligations.OnlyCmdWriteStartsCommand
  refine ⟨fun s sp addr n t h => ⟨?_, fun hs => hostAccess_read_again hs h⟩, fun s t hs h ht => ?_,
    fun s t op rest hs hdelay hhost hreset hresetWith h => ?_⟩
  · obtain ⟨target, r, -, -, rfl⟩ := hostAccess_read_next h
    exact s.sameBlock_answerRead r
  · rcases step_next_cases h with ⟨hturn, -⟩ | ⟨-, -, rfl⟩ | ⟨-, op, rest, hhost, h⟩
    · simp [State.engineTurn, hs] at hturn
    · simp [hs] at ht
    · obtain ⟨v, rfl | rfl⟩ := hostStep_starts hs h ht
      · exact ⟨v, rest, .inl hhost⟩
      · exact ⟨v, rest, .inr hhost⟩
  · have hturn : s.engineTurn = false := by simp [State.engineTurn, hhost, hdelay]
    simp only [step, hturn, hhost] at h
    exact hostStep_sameBlock_of_busy hs hreset hresetWith h

end Sys2Proof.Machine
end

section
/-! PROOFS. Command words: the decoder and the encoder are inverse (O13), the words of the opcode map (O14), and what a step does with a
legal and with an illegal word (O12). -/

namespace Sys2Proof

/-! ## The fields of a word, as numbers -/

theorem splitWord_opcode_toNat (v : Word) : (splitWord v).opcode.toNat = v.toNat % 256 := by
  simp [splitWord]

theorem splitWord_useCtx_toNat (v : Word) : (splitWord v).useCtx.toNat = v.toNat / 256 % 2 := by
  simpa [splitWord, BitVec.getLsbD] using Nat.toNat_testBit v.toNat 8

theorem splitWord_rsvd_toNat (v : Word) : (splitWord v).rsvd.toNat = v.toNat / 512 := by
  have hlt := v.isLt
  simp only [splitWord, BitVec.extractLsb'_toNat, Nat.shiftRight_eq_div_pow]
  omega

/-- 30_encoding.md R70: RSVD, USE_CTX and OPCODE, most significant first. -/
theorem joinWord_toNat (f : CmdFields) :
    (joinWord f).toNat = f.rsvd.toNat * 512 + f.useCtx.toNat * 256 + f.opcode.toNat := by
  have hopcode := f.opcode.isLt
  have hlow : (BitVec.ofBool f.useCtx ++ f.opcode).toNat = f.useCtx.toNat * 256 + f.opcode.toNat := by
    rw [BitVec.toNat_append, ← Nat.shiftLeft_add_eq_or_of_lt hopcode, Nat.shiftLeft_eq, BitVec.toNat_ofBool]
  have hlt := (BitVec.ofBool f.useCtx ++ f.opcode).isLt
  calc (joinWord f).toNat = f.rsvd.toNat <<< (1 + 8) ||| (BitVec.ofBool f.useCtx ++ f.opcode).toNat :=
        BitVec.toNat_append _ _
    _ = f.rsvd.toNat * 512 + f.useCtx.toNat * 256 + f.opcode.toNat := by
        rw [← Nat.shiftLeft_add_eq_or_of_lt hlt, Nat.shiftLeft_eq, hlow]; omega

/-- 30_encoding.md R70: the three fields are the whole word. -/
@[simp] theorem joinWord_splitWord (v : Word) : joinWord (splitWord v) = v := by
  apply BitVec.eq_of_toNat_eq
  rw [joinWord_toNat, splitWord_opcode_toNat, splitWord_useCtx_toNat, splitWord_rsvd_toNat]
  omega

/-- 30_encoding.md R70: a field is read back from the word it was put into. -/
@[simp] theorem splitWord_joinWord (f : CmdFields) : splitWord (joinWord f) = f := by
  have hopcode := f.opcode.isLt
  have huse := f.useCtx.toNat_lt
  have hword := joinWord_toNat f
  have hopcodeEq : (splitWord (joinWord f)).opcode = f.opcode :=
    BitVec.eq_of_toNat_eq (by rw [splitWord_opcode_toNat]; omega)
  have huseEq : (splitWord (joinWord f)).useCtx = f.useCtx :=
    Function.LeftInverse.injective Bool.ofNat_toNat (by rw [splitWord_useCtx_toNat]; omega)
  have hrsvdEq : (splitWord (joinWord f)).rsvd = f.rsvd :=
    BitVec.eq_of_toNat_eq (by rw [splitWord_rsvd_toNat]; omega)
  exact CmdFields.mk.injEq .. ▸ ⟨hopcodeEq, huseEq, hrsvdEq⟩

theorem joinWord_eq_iff {f : CmdFields} {v : Word} : joinWord f = v ↔ splitWord v = f := by
  constructor <;> rintro rfl <;> simp

/-! ## The opcode map -/

@[simp] theorem opcodeMap_fields (i : Instr) : opcodeMap i.fields.opcode i.fields.useCtx = some i := by
  cases i <;> rfl

/-- 30_encoding.md R71: the command of an opcode has that opcode, RSVD 0, and only COMPRESS takes USE_CTX over. -/
theorem fields_of_opcodeMap {opcode : BitVec 8} {useCtx : Bool} {i : Instr} (h : opcodeMap opcode useCtx = some i) :
    i.fields = ⟨opcode, if opcode = 0x01#8 then useCtx else false, 0#23⟩ := by
  unfold opcodeMap at h
  split_ifs at h <;> cases h <;> subst_vars <;> rfl

theorem exists_opcodeMap_iff {opcode : BitVec 8} {useCtx : Bool} :
    (∃ i, opcodeMap opcode useCtx = some i) ↔ opcode ∈ knownOpcodes := by
  unfold opcodeMap knownOpcodes
  split_ifs <;> simp_all

theorem Instr.wf_eq_true (i : Instr) : i.wf = true := by
  cases i with
  | compress useCtx => exact (Laws.LegalWord.compress useCtx).1
  | _ => rfl

/-! ## The decoder -/

/-- `legal(v)` of 30_encoding.md R72, check by check. -/
theorem CmdFields.wf_iff {f : CmdFields} :
    f.wf = true ↔ f.rsvd = 0#23 ∧ (f.useCtx = true → f.opcode = 0x01#8) ∧ f.opcode ∈ knownOpcodes := by
  simp only [CmdFields.wf, CmdFields.opcodeKnown, CmdFields.rsvdZero, CmdFields.ctxOnlyWithCompress, Bool.and_eq_true,
    List.contains_iff_mem, Bool.or_eq_true, Bool.not_eq_true', ← Bool.not_eq_true, ← imp_iff_not_or, beq_iff_eq]
  tauto

/-- 30_encoding.md R72: decoding is two checks and the opcode map. -/
theorem decode_eq_ok {v : Word} {i : Instr} :
    decode v = .ok i ↔ (splitWord v).rsvd = 0#23 ∧ ((splitWord v).useCtx = true → (splitWord v).opcode = 0x01#8) ∧
      opcodeMap (splitWord v).opcode (splitWord v).useCtx = some i := by
  simp only [decode]
  split_ifs with hrsvd hctx
  · simp [hrsvd]
  · simp [hctx]
  · split <;> simp_all

/-- 30_encoding.md R71: a word decodes to the command whose fields it holds. -/
theorem decode_eq_ok_iff_fields {v : Word} {i : Instr} : decode v = .ok i ↔ splitWord v = i.fields := by
  rw [decode_eq_ok]
  constructor
  · rintro ⟨hrsvd, hctx, hmap⟩
    rw [fields_of_opcodeMap hmap, ← hrsvd]
    split_ifs with hop
    · rfl
    · rw [← Bool.eq_false_iff.2 (mt hctx hop)]
  · intro h
    have hwf := CmdFields.wf_iff.1 i.wf_eq_true
    simpa [h] using ⟨hwf.1, hwf.2.1⟩

/-- 30_encoding.md R70 to R72: the decoder inverts the encoder. -/
theorem decode_eq_ok_iff_encode {v : Word} {i : Instr} : decode v = .ok i ↔ encode i = v :=
  decode_eq_ok_iff_fields.trans joinWord_eq_iff.symm

@[simp] theorem decode_encode (i : Instr) : decode (encode i) = .ok i := decode_eq_ok_iff_encode.2 rfl

/-- Settles O13: the fields of a word are the word, and the opcode map and the fields of a command are inverse. -/
theorem decodeEncodeAgree : Obligations.DecodeEncodeAgree := by
  unfold Obligations.DecodeEncodeAgree
  exact ⟨fun v i => decode_eq_ok_iff_encode, fun i => ⟨i.wf_eq_true, decode_encode i⟩⟩

/-- Settles O14: fifteen closed words, run through the decoder. -/
theorem opcodeWords : Obligations.OpcodeWords := by
  unfold Obligations.OpcodeWords
  decide

/-! ## Legal and illegal words -/

theorem exists_decode_iff_wf {v : Word} : (∃ i, decode v = .ok i) ↔ (splitWord v).wf = true := by
  simp [decode_eq_ok, CmdFields.wf_iff, exists_opcodeMap_iff]

namespace Machine

theorem mem_knownOpcodes_iff {opcode : BitVec 8} :
    opcode ∈ knownOpcodes ↔ opcode.toNat ∈ [0x01, 0x02, 0x10, 0x11, 0x20, 0x21, 0x22, 0x23, 0x30, 0x31] :=
  (List.mem_map_of_injective BitVec.toNat_injective (l := knownOpcodes)).symm

/-- 30_encoding.md R72: the decoder's checks on the fields are the numeric ones. -/
theorem legalWord_iff_wf {v : Word} : LegalWord v ↔ (splitWord v).wf = true := by
  have huse := splitWord_useCtx_toNat v
  rw [CmdFields.wf_iff, mem_knownOpcodes_iff, ← BitVec.toNat_inj, ← BitVec.toNat_inj, splitWord_opcode_toNat,
    splitWord_rsvd_toNat, LegalWord, ← huse]
  cases (splitWord v).useCtx <;> simp <;> tauto

theorem exists_decode_iff_legalWord {v : Word} : (∃ i, decode v = .ok i) ↔ LegalWord v :=
  exists_decode_iff_wf.trans legalWord_iff_wf.symm

/-- 70_reset_and_hazards.md R285: while BUSY, with no host step to come first, a step is the engine's. -/
theorem step_eq_engineStep {s : State} (hphase : s.phase = .busy) (hturn : s.host = [] ∨ s.engineDelay = 0) :
    step s = engineStep s := by
  have hturn : s.engineTurn = true := by simpa [State.engineTurn, hphase] using hturn
  simp [step, hturn]

theorem engineStep_of_decode {s : State} {i : Instr} (h : decode s.curCmd = .ok i) : engineStep s = exec i s := by
  simp [engineStep, State.fetchCommand, h]

/-- 30_encoding.md R72: a word that no command has ends with IllegalCommand. -/
theorem engineStep_of_illegal {s : State} (h : ¬ LegalWord s.curCmd) : engineStep s = .next s.raiseIllegal := by
  unfold engineStep
  split
  next i hi => exact absurd (exists_decode_iff_legalWord.1 ⟨i, hi⟩) h
  next => rfl

/-- 60_exceptions.md R244: an error changes nothing outside its destination set but the record. -/
theorem State.keepsAllBut_raiseError (s : State) (ds : List Dest) (e : CmdError) :
    State.KeepsAllBut ds s (s.raiseError ds e) := by
  simp +contextual [State.KeepsAllBut, Memory.SameCells, State.raiseError_outBuf, State.raiseError_outLen,
    State.raiseError_tokCount, State.raiseError_cb, State.raiseError_cbCount, State.raiseError_bitsBuf, State.raiseError_bitsLen,
    State.raiseError_pad, State.raiseError_modelBuf, State.raiseError_modelLen]

/-- Settles O12: a word is legal exactly when it decodes, and the engine runs what it decodes to or raises IllegalCommand. -/
theorem legalityOfWords : Obligations.LegalityOfWords := by
  unfold Obligations.LegalityOfWords
  refine ⟨fun v => exists_decode_iff_legalWord, fun s hphase hturn hlegal => ?_, fun s hphase hturn hillegal => ?_⟩
  · obtain ⟨i, hi⟩ := exists_decode_iff_legalWord.2 hlegal
    exact ⟨i, decode_eq_ok_iff_encode.1 hi, (step_eq_engineStep hphase hturn).trans (engineStep_of_decode hi)⟩
  · exact ⟨s.raiseIllegal, (step_eq_engineStep hphase hturn).trans (engineStep_of_illegal hillegal),
      s.endedError_raiseError [] _, s.keepsAllBut_raiseError [] _⟩

end Machine

end Sys2Proof
end

section
/-! PROOFS. The bit order of packed bits (O31) and the bytes of tokens (O19). -/

namespace Sys2Proof.Machine

/-! ## Packing -/

/-- 42_bit_packer.md R170: the first bit of a group is the most significant of its byte. -/
theorem bitsOfByte_byteOfBits : ∀ b0 b1 b2 b3 b4 b5 b6 b7,
    bitsOfByte (byteOfBits b0 b1 b2 b3 b4 b5 b6 b7) = [b0, b1, b2, b3, b4, b5, b6, b7] := by decide

theorem bitsOfByte_getElem? (b : Byte) {k : Nat} (hk : k < 8) : (bitsOfByte b)[k]? = some (b.getLsbD (7 - k)) := by
  interval_cases k <;> rfl

/-- What is too short for a group packs to nothing. -/
theorem length_lt_of_no_group {bits : List Bool}
    (h : ∀ b0 b1 b2 b3 b4 b5 b6 b7 rest, bits = b0 :: b1 :: b2 :: b3 :: b4 :: b5 :: b6 :: b7 :: rest → False) :
    bits.length < 8 := by
  rcases bits with _ | ⟨_, _ | ⟨_, _ | ⟨_, _ | ⟨_, _ | ⟨_, _ | ⟨_, _ | ⟨_, _ | ⟨_, _⟩⟩⟩⟩⟩⟩⟩⟩
  case cons.cons.cons.cons.cons.cons.cons.cons => exact (h _ _ _ _ _ _ _ _ _ rfl).elim
  all_goals simp

theorem packGroups_length (bits : List Bool) : (packGroups bits).length = bits.length / 8 := by
  induction bits using packGroups.induct with
  | case1 b0 b1 b2 b3 b4 b5 b6 b7 rest ih =>
    simp only [packGroups, List.length_cons, ih]; omega
  | case2 bits h => simp [packGroups, Nat.div_eq_of_lt (length_lt_of_no_group h)]

/-- 30_encoding.md R85: bit `8 * j + k` is in byte `j`, at position `7 - k`. -/
theorem packGroups_bit {bits : List Bool} {j k : Nat} (hj : j < (packGroups bits).length) (hk : k < 8) :
    ((packGroups bits)[j]?).map (fun b => b.getLsbD (7 - k)) = bits[8 * j + k]? := by
  induction bits using packGroups.induct generalizing j with
  | case1 b0 b1 b2 b3 b4 b5 b6 b7 rest ih =>
    cases j with
    | zero =>
      rw [packGroups, List.getElem?_cons_zero, Option.map_some, ← bitsOfByte_getElem? _ hk, bitsOfByte_byteOfBits]
      interval_cases k <;> rfl
    | succ j =>
      rw [packGroups, List.length_cons, Nat.add_lt_add_iff_right] at hj
      rw [packGroups, List.getElem?_cons_succ, ih hj, show 8 * (j + 1) + k = 8 * j + k + 8 by omega]
      rfl
  | case2 bits h =>
    simp [packGroups] at hj

/-- 42_bit_packer.md R170: the pad fills the last byte. -/
theorem length_add_padOf (len : Nat) : len + padOf len = 8 * ((len + 7) / 8) := by
  unfold padOf; omega

theorem pack_length (bits : List Bool) : (pack bits).1.length = (bits.length + 7) / 8 := by
  simp [pack, packGroups_length, length_add_padOf]

theorem getElem?_append_replicate_false {bits : List Bool} {n j : Nat} (hj : j < bits.length + n) :
    (bits ++ List.replicate n false)[j]? = some (bits.getD j false) := by
  rcases Nat.lt_or_ge j bits.length with hlt | hge
  · simp [List.getElem?_append_left hlt, hlt]
  · rw [List.getElem?_append_right hge, List.getElem?_replicate_of_lt (by omega)]
    simp [hge]

/-- 42_bit_packer.md R170, 30_encoding.md R85: PACK stores bit after bit, and zeros beyond the last. -/
theorem pack_bit {bits : List Bool} {j k : Nat} (hj : j < (pack bits).1.length) (hk : k < 8) :
    ((pack bits).1[j]?).map (fun b => b.getLsbD (7 - k)) = some (bits.getD (8 * j + k) false) := by
  have hlen := pack_length bits
  have hpad := length_add_padOf bits.length
  exact (packGroups_bit hj hk).trans (getElem?_append_replicate_false (by omega))

/-- Settles O31: the pad completes the last group, and each group is stored first bit most significant. -/
theorem packedBitOrder : Obligations.PackedBitOrder := by
  unfold Obligations.PackedBitOrder
  intro bits p
  have hpad : p.2 = (8 - bits.length % 8) % 8 := rfl
  have hlen : p.1.length = (bits.length + 7) / 8 := pack_length bits
  exact ⟨hpad, by omega, by omega, hlen, by omega, fun j k => pack_bit⟩

/-! ## Tokens -/

@[simp] theorem ser_nil : ser [] = [] := rfl

@[simp] theorem ser_cons (t : Token) (ts : List Token) : ser (t :: ts) = serToken t ++ ser ts := List.flatMap_cons

theorem ser_append (ts us : List Token) : ser (ts ++ us) = ser ts ++ ser us := List.flatMap_append

/-- 30_encoding.md R80: 2 bytes for a literal, 3 for a match. -/
theorem ser_length (ts : List Token) :
    (ser ts).length = 2 * ts.countP Token.isLiteral + 3 * ts.countP (fun t => !t.isLiteral) := by
  induction ts with
  | nil => rfl
  | cons t ts ih =>
    rw [ser_cons, List.length_append, ih, List.countP_cons, List.countP_cons]
    cases t with
    | literal b => simp [serToken, Token.isLiteral]; omega
    | backRef l d => simp [serToken, Token.isLiteral]; omega

theorem parseToken_of_two_le {tag : Byte} (h : 2 ≤ tag.toNat) (rest : List Byte) : parseToken (tag :: rest) = none := by
  have h0 : tag ≠ 0x00#8 := by rintro rfl; simp at h
  have h1 : tag ≠ 0x01#8 := by rintro rfl; simp at h
  simp [parseToken, h0, h1]

/-- Settles O19: the bytes of a list by induction on it, a tag that is no tag by its value, the rest by evaluation. -/
theorem tokenBytes : Obligations.TokenBytes := by
  unfold Obligations.TokenBytes
  exact ⟨fun _ => rfl, fun _ _ => rfl, ser_append, ser_length, fun _ _ => rfl, fun _ _ _ => rfl,
    ⟨rfl, rfl, fun _ => rfl⟩, fun _ rest h => parseToken_of_two_le h rest⟩

end Sys2Proof.Machine
end

section
/-! PROOFS. The codebook text: a piece parses exactly as the entry it spells, so a text parses exactly as the codebook it spells (O27), and
the first piece that fails decides its error (O28). -/

namespace Sys2Proof.Machine

/-! ## Symbols -/

theorem digitValue_eq_some {b : Byte} {d : Nat} :
    digitValue b = some d ↔ (0x30 ≤ b.toNat ∧ b.toNat ≤ 0x39) ∧ b.toNat - 0x30 = d := by
  simp [digitValue]

theorem digitValue_eq_none {b : Byte} : digitValue b = none ↔ ¬ (0x30 ≤ b.toNat ∧ b.toNat ≤ 0x39) := by
  simp [digitValue]

/-- 30_encoding.md R82: only DIGITs spell a number. -/
theorem decimalValue_eq_some {acc n : Nat} {digits : List Byte} :
    decimalValue acc digits = some n ↔ (∀ b ∈ digits, 0x30 ≤ b.toNat ∧ b.toNat ≤ 0x39) ∧
      digits.foldl (fun n b => 10 * n + (b.toNat - 0x30)) acc = n := by
  induction digits generalizing acc with
  | nil => simp [decimalValue]
  | cons b bs ih =>
    unfold decimalValue
    split
    next d hd =>
      obtain ⟨hb, rfl⟩ := digitValue_eq_some.1 hd
      simp [ih, hb]
    next hd => simp [digitValue_eq_none.1 hd]

theorem parseSymbol_eq_some {digits : List Byte} {s : Byte} :
    parseSymbol digits = some s ↔
      (1 ≤ digits.length ∧ digits.length ≤ 3) ∧ decimalValue 0 digits = some s.toNat := by
  unfold parseSymbol
  split_ifs with hlen
  · rw [and_iff_right hlen]
    split
    next n hn =>
      have hs := s.isLt
      rw [hn, Option.some_inj]
      split_ifs with h255
      · rw [Option.some_inj, ← BitVec.toNat_inj, BitVec.toNat_ofNat, Nat.mod_eq_of_lt (by omega)]
      · simp; omega
    next hn => simp [hn]
  · simp [hlen]

/-! ## Codes -/

theorem codeText_eq_map (c : Code) : codeText c = c.map (fun b => if b then 0x31#8 else 0x30#8) :=
  List.map_congr_left fun b _ => by cases b <;> rfl

theorem codeText_cons (b : Bool) (c : Code) : codeText (b :: c) = (if b then 0x31#8 else 0x30#8) :: codeText c := by
  simp [codeText_eq_map]

theorem parseBits_codeText (c : Code) : parseBits (codeText c) = some c := by
  induction c with
  | nil => rfl
  | cons b c ih => cases b <;> simp [codeText_cons, parseBits, ih]

theorem codeText_of_parseBits {t : List Byte} {c : Code} (h : parseBits t = some c) : codeText c = t := by
  induction t generalizing c with
  | nil => cases h; rfl
  | cons b bs ih =>
    unfold parseBits at h
    split at h
    · cases h
    next d hd =>
      split_ifs at h with h0 h1 <;> cases h
      · rw [codeText_cons, ih hd, h0]; rfl
      · rw [codeText_cons, ih hd, h1]; rfl

theorem parseCode_eq_some {t : List Byte} {c : Code} :
    parseCode t = some c ↔ t = codeText c ∧ 1 ≤ c.length ∧ c.length ≤ 255 := by
  constructor
  · intro h
    refine ⟨?_, parseCode_length h⟩
    unfold parseCode at h
    split_ifs at h
    exact (codeText_of_parseBits h).symm
  · rintro ⟨rfl, hlen⟩
    simpa [parseCode, codeText, maxCodeLen, hlen] using parseBits_codeText c

/-! ## Entries -/

theorem ne_colon_of_digit {b : Byte} (h : 0x30 ≤ b.toNat ∧ b.toNat ≤ 0x39) : b ≠ colon := by
  rintro rfl; simp [colon] at h

/-- An entry parses exactly as a symbol, a colon and a code. -/
theorem parseEntry_eq_some {t : List Byte} {e : Byte × Code} :
    parseEntry t = some e ↔ ∃ digits rest, t = digits ++ colon :: rest ∧ parseSymbol digits = some e.1 ∧
      parseCode rest = some e.2 := by
  constructor
  · intro h
    unfold parseEntry at h
    split at h
    next s b rest hsym hdrop =>
      split at h <;> cases h
      next code hcode =>
        have hb := List.head?_dropWhile_not (· ≠ colon) t
        obtain rfl : b = colon := by simpa only [hdrop, List.head?_cons, decide_eq_false_iff_not, not_not] using hb
        exact ⟨t.takeWhile (· ≠ colon), rest, by rw [← hdrop, List.takeWhile_append_dropWhile], hsym, hcode⟩
    · cases h
  · rintro ⟨digits, rest, rfl, hsym, hcode⟩
    have hdigits : ∀ b ∈ digits, decide (b ≠ colon) = true := fun b hb =>
      decide_eq_true (ne_colon_of_digit ((decimalValue_eq_some.1 (parseSymbol_eq_some.1 hsym).2).1 b hb))
    rw [parseEntry, List.takeWhile_append_of_pos hdigits, List.dropWhile_append_of_pos hdigits,
      List.takeWhile_cons_of_neg (by simp), List.dropWhile_cons_of_neg (by simp), List.append_nil, hsym]
    simp [hcode]

/-- 30_encoding.md R82: a piece parses as an entry exactly when it spells it. -/
theorem parseEntry_eq_some_iff_spells {t : List Byte} {e : Byte × Code} : parseEntry t = some e ↔ SpellsEntry t e := by
  simp only [parseEntry_eq_some, parseSymbol_eq_some, decimalValue_eq_some, parseCode_eq_some, SpellsEntry]
  constructor
  · rintro ⟨digits, rest, rfl, ⟨⟨hpos, hle⟩, hdigits, hvalue⟩, rfl, hcode⟩
    exact ⟨digits, by rw [codeText_eq_map]; rfl, hpos, hle, hdigits, hvalue, hcode⟩
  · rintro ⟨digits, rfl, hpos, hle, hdigits, hvalue, hcode⟩
    exact ⟨digits, _, rfl, ⟨⟨hpos, hle⟩, hdigits, hvalue⟩, (codeText_eq_map e.2).symm, hcode⟩

theorem SpellsEntry.semicolon_not_mem {t : List Byte} {e : Byte × Code} (h : SpellsEntry t e) : semicolon ∉ t := by
  obtain ⟨digits, rfl, -, -, hdigits, -⟩ := h
  intro hmem
  rcases List.mem_append.1 hmem with hmem | hmem
  · simpa [semicolon] using hdigits _ hmem
  · simp [semicolon] at hmem

theorem SpellsEntry.ne_nil {t : List Byte} {e : Byte × Code} (h : SpellsEntry t e) : t ≠ [] := by
  obtain ⟨digits, rfl, -⟩ := h
  simp

theorem semicolon_not_mem_of_spells {pieces : List (List Byte)} {cb : Codebook}
    (h : List.Forall₂ SpellsEntry pieces cb) : ∀ p ∈ pieces, semicolon ∉ p := by
  induction h with
  | nil => simp
  | cons he _ ih => exact List.forall_mem_cons.2 ⟨he.semicolon_not_mem, ih⟩

/-! ## Pieces -/

theorem splitBytes_eq_splitOn (sep : Byte) (t : List Byte) : splitBytes sep t = t.splitOn sep := by
  induction t with
  | nil => rfl
  | cons b bs ih =>
    rw [splitBytes, ih, List.splitOn_cons_eq_if_modifyHead]
    obtain ⟨p, ps, hps⟩ := List.exists_cons_of_ne_nil (List.splitOn_ne_nil sep bs)
    simp [hps]

theorem intercalate_ne_nil {sep : Byte} {pieces : List (List Byte)} {piece : List Byte} (hmem : piece ∈ pieces)
    (h : piece ≠ []) : List.intercalate [sep] pieces ≠ [] := by
  match pieces with
  | [p] => obtain rfl := List.mem_singleton.1 hmem; simpa using h
  | p :: q :: ps => simp

/-- A piece before which no piece has the separator is a piece of the joined text, whatever follows. -/
theorem splitOn_intercalate_append {sep : Byte} {before : List (List Byte)} {piece : List Byte}
    (hbefore : ∀ p ∈ before, sep ∉ p) (hpiece : sep ∉ piece) (after : List (List Byte)) :
    ∃ tail, (List.intercalate [sep] (before ++ piece :: after)).splitOn sep = before ++ piece :: tail := by
  induction before with
  | nil =>
    cases after with
    | nil => exact ⟨[], by simp [List.splitOn_eq_singleton hpiece]⟩
    | cons a as =>
      exact ⟨(List.intercalate [sep] (a :: as)).splitOn sep, by simp [List.splitOn_append_cons_self_of_not_mem hpiece]⟩
  | cons p ps ih =>
    obtain ⟨hp, hps⟩ := List.forall_mem_cons.1 hbefore
    obtain ⟨tail, htail⟩ := ih hps
    refine ⟨tail, ?_⟩
    rw [List.cons_append, List.intercalate_cons_of_ne_nil (by simp), List.append_assoc, List.singleton_append,
      List.splitOn_append_cons_self_of_not_mem hp, htail, List.cons_append]

/-- 00_scope.md R14: an entry of a codebook repeats no symbol and no code of the entries before it. -/
theorem Codebook.Valid.fresh {seen es : Codebook} {e : Byte × Code} (h : Codebook.Valid (seen ++ e :: es)) :
    e.1 ∉ seen.map Prod.fst ∧ e.2 ∉ seen.map Prod.snd := by
  obtain ⟨hsyms, hcodes, -⟩ := h
  rw [List.map_append, List.map_cons] at hsyms hcodes
  exact ⟨fun hmem => List.disjoint_of_nodup_append hsyms hmem List.mem_cons_self,
    fun hmem => List.disjoint_of_nodup_append hcodes hmem List.mem_cons_self⟩

/-! ## The scan over the pieces -/

section
variable {t : List Byte} {e : Byte × Code} {seen : Codebook} {ts : List (List Byte)}

@[simp] theorem parseEntries_nil : parseEntries seen [] = .ok seen := rfl

theorem parseEntries_cons_malformed (h : ∀ e, ¬ SpellsEntry t e) :
    parseEntries seen (t :: ts) = .error (.corruptContainer .malformedText) := by
  have hnone : parseEntry t = none :=
    Option.eq_none_iff_forall_ne_some.2 fun e => mt parseEntry_eq_some_iff_spells.1 (h e)
  simp [parseEntries, hnone]

theorem parseEntries_cons (h : SpellsEntry t e) :
    parseEntries seen (t :: ts) =
      if e.1 ∈ seen.map Prod.fst then .error (.corruptContainer .repeatedSymbol)
      else if e.2 ∈ seen.map Prod.snd then .error (.corruptContainer .repeatedCode)
      else parseEntries (seen ++ [e]) ts := by
  rw [parseEntries, parseEntry_eq_some_iff_spells.2 h]

/-- What the scan accepts, it appends entry by entry. -/
theorem parseEntries_ok {cb : Codebook} (h : parseEntries seen ts = .ok cb) :
    ∃ es, cb = seen ++ es ∧ List.Forall₂ SpellsEntry ts es := by
  induction ts generalizing seen with
  | nil => cases h; exact ⟨[], by simp, .nil⟩
  | cons t ts ih =>
    by_cases hspell : ∃ e, SpellsEntry t e
    · obtain ⟨e, he⟩ := hspell
      rw [parseEntries_cons he] at h
      split_ifs at h
      obtain ⟨es, rfl, hes⟩ := ih h
      exact ⟨e :: es, by simp, .cons he hes⟩
    · rw [parseEntries_cons_malformed (not_exists.1 hspell)] at h
      cases h

/-- 41_prefix_coder.md R137: the three ways the scan fails. -/
theorem parseEntries_error {err : CmdError} (h : parseEntries seen ts = .error err) :
    err = .corruptContainer .malformedText ∨ err = .corruptContainer .repeatedSymbol ∨
      err = .corruptContainer .repeatedCode := by
  induction ts generalizing seen with
  | nil => cases h
  | cons t ts ih =>
    by_cases hspell : ∃ e, SpellsEntry t e
    · obtain ⟨e, he⟩ := hspell
      rw [parseEntries_cons he] at h
      split_ifs at h
      · cases h; simp
      · cases h; simp
      · exact ih h
    · rw [parseEntries_cons_malformed (not_exists.1 hspell)] at h
      cases h; simp

/-- Pieces that spell distinct new entries are read, and the scan goes on after them. -/
theorem parseEntries_append {es : Codebook} (h : List.Forall₂ SpellsEntry ts es) (rest : List (List Byte)) :
    Codebook.Valid (seen ++ es) → parseEntries seen (ts ++ rest) = parseEntries (seen ++ es) rest := by
  induction h generalizing seen with
  | nil => simp
  | @cons t e ts es he hes ih =>
    intro hvalid
    obtain ⟨hsym, hcode⟩ := hvalid.fresh
    rw [List.append_cons] at hvalid ⊢
    rw [List.cons_append, parseEntries_cons he, if_neg hsym, if_neg hcode, ih hvalid]

end

/-! ## The parser -/

theorem cbParse_of_ne_nil {t : List Byte} (h : t ≠ []) : cbParse t = parseEntries [] (t.splitOn semicolon) := by
  simp [cbParse, h, splitBytes_eq_splitOn]

/-- 41_prefix_coder.md R137: a text is accepted exactly as the codebook it spells. -/
theorem cbParse_eq_ok {t : List Byte} {cb : Codebook} :
    cbParse t = .ok cb ↔ (t = [] ∧ cb = []) ∨
      (Codebook.Valid cb ∧ ∃ pieces, pieces ≠ [] ∧ t = List.intercalate [semicolon] pieces ∧
        List.Forall₂ SpellsEntry pieces cb) := by
  constructor
  · intro h
    by_cases ht : t = []
    · subst ht; cases h; exact .inl ⟨rfl, rfl⟩
    · have hvalid := cbParse_valid h
      rw [cbParse_of_ne_nil ht] at h
      obtain ⟨es, rfl, hes⟩ := parseEntries_ok h
      exact .inr ⟨hvalid, t.splitOn semicolon, List.splitOn_ne_nil semicolon t,
        (List.intercalate_splitOn semicolon).symm, hes⟩
  · rintro (⟨rfl, rfl⟩ | ⟨hvalid, pieces, hne, rfl, hspell⟩)
    · rfl
    · obtain ⟨piece, rest, rfl⟩ := List.exists_cons_of_ne_nil hne
      obtain ⟨e, es, he, -, -⟩ := List.forall₂_cons_left_iff.1 hspell
      rw [cbParse_of_ne_nil (intercalate_ne_nil List.mem_cons_self he.ne_nil),
        List.splitOn_intercalate semicolon (semicolon_not_mem_of_spells hspell) hne]
      simpa using parseEntries_append (seen := []) hspell [] hvalid

/-- The pieces before one spell distinct entries: the text's outcome is the scan's from that piece on. -/
theorem cbParse_intercalate_append {before : List (List Byte)} {cb : Codebook} {piece : List Byte} (after : List (List Byte))
    (hspell : List.Forall₂ SpellsEntry before cb) (hvalid : Codebook.Valid cb) (hpiece : semicolon ∉ piece)
    (hne : List.intercalate [semicolon] (before ++ piece :: after) ≠ []) :
    ∃ tail, cbParse (List.intercalate [semicolon] (before ++ piece :: after)) = parseEntries cb (piece :: tail) := by
  obtain ⟨tail, htail⟩ := splitOn_intercalate_append (semicolon_not_mem_of_spells hspell) hpiece after
  exact ⟨tail, by rw [cbParse_of_ne_nil hne, htail]; exact parseEntries_append hspell _ hvalid⟩

theorem cbParse_error {t : List Byte} {err : CmdError} (h : cbParse t = .error err) :
    err = .corruptContainer .malformedText ∨ err = .corruptContainer .repeatedSymbol ∨
      err = .corruptContainer .repeatedCode := by
  unfold cbParse at h
  split_ifs at h
  exact parseEntries_error h

/-- Settles O28: a piece parses exactly as the entry it spells, and the scan passes the pieces before it. -/
theorem codebookTextAccepted : Obligations.CodebookTextAccepted := by
  unfold Obligations.CodebookTextAccepted
  constructor
  · refine fun t => ⟨fun cb => cbParse_eq_ok, fun err h => ?_⟩
    obtain rfl | rfl | rfl := cbParse_error h <;> simp [CmdError.code, CmdError.info, ContainerCause.subCode]
  · intro before cb piece after hspell hvalid hpiece t
    have hscan : t ≠ [] → ∃ tail, cbParse t = parseEntries cb (piece :: tail) :=
      cbParse_intercalate_append after hspell hvalid hpiece
    have hne : ∀ e, SpellsEntry piece e → t ≠ [] := fun e he => intercalate_ne_nil (by simp) he.ne_nil
    refine ⟨fun hmalformed ht => ?_, fun e he hsym => ?_, fun e he hsym hcode => ?_⟩
    · obtain ⟨tail, htail⟩ := hscan ht
      exact ⟨_, htail.trans (parseEntries_cons_malformed hmalformed), rfl, rfl⟩
    · obtain ⟨tail, htail⟩ := hscan (hne e he)
      rw [parseEntries_cons he, if_pos hsym] at htail
      exact ⟨_, htail, rfl, rfl⟩
    · obtain ⟨tail, htail⟩ := hscan (hne e he)
      rw [parseEntries_cons he, if_neg hsym, if_pos hcode] at htail
      exact ⟨_, htail, rfl, rfl⟩

/-! ## The text of a codebook -/

theorem cbText_eq_intercalate : ∀ cb, cbText cb = List.intercalate [semicolon] (cb.map entryText)
  | [] => rfl
  | [e] => by simp [cbText]
  | e :: f :: cb => by simp [cbText, cbText_eq_intercalate (f :: cb)]

theorem digitChar_toNat {n : Nat} (h : n < 10) : (digitChar n).toNat = 0x30 + n := by
  simp [digitChar]; omega

theorem digitValue_digitChar {n : Nat} (h : n < 10) : digitValue (digitChar n) = some n := by
  rw [digitValue_eq_some, digitChar_toNat h]
  omega

theorem digitChar_ne_zero {n : Nat} (hpos : 0 < n) (hlt : n < 10) : digitChar n ≠ 0x30#8 := by
  intro h
  have hn : n = 0 := by simpa [digitChar_toNat hlt] using congrArg BitVec.toNat h
  omega

theorem decimalText_length (s : Byte) : 1 ≤ (decimalText s).length ∧ (decimalText s).length ≤ 3 := by
  simp only [decimalText]; split_ifs <;> simp

/-- 30_encoding.md R81: D(s) spells s. -/
theorem decimalValue_decimalText (s : Byte) : decimalValue 0 (decimalText s) = some s.toNat := by
  have hs := s.isLt
  simp only [decimalText]
  split_ifs with h10 h100
  · simp [decimalValue, digitValue_digitChar h10]
  · simp [decimalValue, digitValue_digitChar, Nat.mod_lt, show s.toNat / 10 < 10 by omega]
    omega
  · simp [decimalValue, digitValue_digitChar, Nat.mod_lt, show s.toNat / 100 < 10 by omega]
    omega

theorem spellsEntry_entryText {e : Byte × Code} (h : 1 ≤ e.2.length ∧ e.2.length ≤ 255) : SpellsEntry (entryText e) e :=
  parseEntry_eq_some_iff_spells.1 (parseEntry_eq_some.2 ⟨decimalText e.1, codeText e.2, rfl,
    parseSymbol_eq_some.2 ⟨decimalText_length e.1, decimalValue_decimalText e.1⟩, parseCode_eq_some.2 ⟨rfl, h⟩⟩)

/-- 30_encoding.md R81: D(s) begins with '0' for zero alone. -/
theorem decimalText_of_head {s : Byte} (h : (decimalText s).head? = some 0x30#8) : decimalText s = [0x30#8] := by
  have hs := s.isLt
  simp only [decimalText] at h ⊢
  split_ifs at h ⊢ with h10 h100
  · simpa using h
  · exact absurd (Option.some_inj.1 h) (digitChar_ne_zero (by omega) (by omega))
  · exact absurd (Option.some_inj.1 h) (digitChar_ne_zero (by omega) (by omega))

/-- 30_encoding.md R81: after a leading '0' comes the colon. -/
theorem entryText_no_leading_zero {e : Byte × Code} {b : Byte} (hhead : (entryText e).head? = some 0x30#8)
    (hnext : (entryText e)[1]? = some b) : b = colon := by
  obtain ⟨d, ds, hds⟩ := List.exists_cons_of_length_pos (decimalText_length e.1).1
  have hzero : decimalText e.1 = [0x30#8] := decimalText_of_head (by simpa [entryText, hds] using hhead)
  simpa [entryText, hzero, eq_comm] using hnext

theorem forall₂_spellsEntry_entryText {cb : Codebook} (h : Codebook.Valid cb) :
    List.Forall₂ SpellsEntry (cb.map entryText) cb := by
  obtain ⟨-, -, hlen⟩ := h
  exact List.forall₂_map_left_iff.2 (List.forall₂_same.2 fun e he => spellsEntry_entryText (hlen e he))

/-- Settles O27: the pieces are the entries' texts, each of which spells its entry. -/
theorem codebookTextRoundTrip : Obligations.CodebookTextRoundTrip := by
  unfold Obligations.CodebookTextRoundTrip
  refine ⟨rfl, fun cb hvalid => ?_⟩
  have htext := cbText_eq_intercalate cb
  have hspell := forall₂_spellsEntry_entryText hvalid
  constructor
  · rw [cbParse_eq_ok]
    by_cases hcb : cb = []
    · subst hcb; exact .inl ⟨rfl, rfl⟩
    · exact .inr ⟨hvalid, cb.map entryText, by simpa using hcb, htext, hspell⟩
  · refine fun _ => ⟨cb.map entryText, htext, hspell, fun p hp b hhead hnext => ?_⟩
    obtain ⟨e, -, rfl⟩ := List.mem_map.1 hp
    exact entryText_no_leading_zero hhead hnext

end Sys2Proof.Machine
end

section
/-! PROOFS. The Window Matcher: the match length (O15), the longest match (O16), and the tokens of the encoder (O17, O18). -/

namespace Sys2Proof.Machine

/-! ## Bytes in common -/

section
variable (k : Nat) (as bs : List Byte)

theorem commonPrefix_le_cap : commonPrefix k as bs ≤ k := by
  fun_induction commonPrefix k as bs with
  | case4 k a as bs ih => exact Nat.succ_le_succ ih
  | _ => exact Nat.zero_le _

theorem commonPrefix_le_length : commonPrefix k as bs ≤ bs.length := by
  fun_induction commonPrefix k as bs with
  | case4 k a as bs ih => exact Nat.succ_le_succ ih
  | _ => exact Nat.zero_le _

variable {k as bs}

theorem getElem?_eq_of_lt_commonPrefix {j : Nat} (hj : j < commonPrefix k as bs) : as[j]? = bs[j]? := by
  fun_induction commonPrefix k as bs generalizing j with
  | case4 k a as bs ih =>
    cases j with
    | zero => rfl
    | succ j => exact ih (Nat.lt_of_succ_lt_succ hj)
  | _ => exact absurd hj (Nat.not_lt_zero j)

variable (k as bs)

/-- Counting stops at the cap, at the end of the second sequence, or at the first difference. -/
theorem commonPrefix_stops :
    commonPrefix k as bs = k ∨ commonPrefix k as bs = bs.length ∨
      as[commonPrefix k as bs]? ≠ bs[commonPrefix k as bs]? := by
  fun_induction commonPrefix k as bs with
  | case1 => exact .inl rfl
  | case2 k bs => cases bs <;> simp
  | case3 => exact .inr (.inl rfl)
  | case4 k a as bs ih => simpa using ih
  | case5 k a as b bs hne => simp [hne]

end

/-! ## The match length -/

section
variable (c : Config) (data : List Byte)

theorem matchLength_le_maxMatch (i d : Nat) : matchLength c data i d ≤ c.maxMatch := commonPrefix_le_cap ..

theorem add_matchLength_le_length {i : Nat} (hi : i ≤ data.length) (d : Nat) :
    i + matchLength c data i d ≤ data.length := by
  have h := commonPrefix_le_length c.maxMatch (data.drop (i - d)) (data.drop i)
  rw [List.length_drop] at h
  unfold matchLength
  omega

variable {c data}

theorem getElem?_eq_of_lt_matchLength {i d j : Nat} (hj : j < matchLength c data i d) :
    data[i - d + j]? = data[i + j]? := by
  simpa using getElem?_eq_of_lt_commonPrefix hj

variable (c)

/-- 40_window_matcher.md R100: a match ends at MAX_MATCH, at the end of the data, or before two bytes that differ. -/
theorem matchLength_stops {i : Nat} (hi : i ≤ data.length) (d : Nat) :
    matchLength c data i d = c.maxMatch ∨ i + matchLength c data i d = data.length ∨
      data[i - d + matchLength c data i d]? ≠ data[i + matchLength c data i d]? := by
  have h := commonPrefix_stops c.maxMatch (data.drop (i - d)) (data.drop i)
  rw [List.getElem?_drop, List.getElem?_drop, List.length_drop] at h
  refine h.imp_right (Or.imp_left fun hend => ?_)
  unfold matchLength
  omega

end

/-- Settles O15: the count of common bytes is capped, counts equal bytes only, and stops for one of three reasons. -/
theorem matchLengthIsMaximal : Obligations.MatchLengthIsMaximal := by
  unfold Obligations.MatchLengthIsMaximal
  intro c data i d hi _ _
  exact ⟨matchLength_le_maxMatch c data i d, add_matchLength_le_length c data hi.le d,
    fun j => getElem?_eq_of_lt_matchLength, matchLength_stops c hi.le d⟩

/-! ## The longest match -/

section
variable (c : Config) (data : List Byte) (i : Nat)

/-- `best` is what R101 asks of the distances below d: at least as long as each match there; and (0, 0), or a match there that is longer
than every match at a smaller distance. -/
def LongestBelow (d : Nat) (best : Nat × Nat) : Prop :=
  (∀ e, 1 ≤ e → e < d → matchLength c data i e ≤ best.1) ∧
  (best = (0, 0) ∨
    (1 ≤ best.2 ∧ best.2 < d ∧ best.1 = matchLength c data i best.2 ∧ 0 < best.1 ∧
      ∀ e, 1 ≤ e → e < best.2 → matchLength c data i e < best.1))

theorem longestBelow_one : LongestBelow c data i 1 (0, 0) :=
  ⟨fun _ h1 hlt => absurd hlt h1.not_gt, .inl rfl⟩

variable {c data i}

/-- One more distance: a strictly longer match there replaces the best, and no other does. -/
theorem LongestBelow.next {d : Nat} {best : Nat × Nat} (hd : 1 ≤ d) (h : LongestBelow c data i d best) :
    LongestBelow c data i (d + 1)
      (if matchLength c data i d > best.1 then (matchLength c data i d, d) else best) := by
  obtain ⟨hmax, hbest⟩ := h
  split
  next hlonger =>
    have hless : ∀ e, 1 ≤ e → e < d → matchLength c data i e < matchLength c data i d :=
      fun e h1 hlt => (hmax e h1 hlt).trans_lt hlonger
    refine ⟨fun e h1 hlt => ?_, .inr ⟨hd, d.lt_succ_self, rfl, Nat.zero_lt_of_lt hlonger, hless⟩⟩
    obtain hlt | rfl := Nat.lt_succ_iff_lt_or_eq.1 hlt
    · exact (hless e h1 hlt).le
    · exact le_rfl
  next hnot =>
    refine ⟨fun e h1 hlt => ?_, hbest.imp_right fun ⟨h1, hlt, hrest⟩ => ⟨h1, Nat.lt_succ_of_lt hlt, hrest⟩⟩
    obtain hlt | rfl := Nat.lt_succ_iff_lt_or_eq.1 hlt
    · exact hmax e h1 hlt
    · exact Nat.le_of_not_lt hnot

theorem LongestBelow.after_search {d : Nat} {best : Nat × Nat} (hd : 1 ≤ d) (h : LongestBelow c data i d best) (k : Nat) :
    LongestBelow c data i (d + k) (longestFrom c data i k d best) := by
  induction k generalizing d best with
  | zero => exact h
  | succ k ih =>
    rw [show d + (k + 1) = d + 1 + k by omega]
    exact ih (Nat.le_succ_of_le hd) (h.next hd)

variable (c data i)

theorem longest_longestBelow : LongestBelow c data i (1 + min c.w i) (longest c data i) :=
  (longestBelow_one c data i).after_search le_rfl _

end

/-- Settles O16: the search keeps the longest match of the distances it has tried, and it tries 1 to min(W, i). -/
theorem longestPrefersSmallestDistance : Obligations.LongestPrefersSmallestDistance := by
  unfold Obligations.LongestPrefersSmallestDistance
  intro c data i _
  obtain ⟨hmax, hbest⟩ := longest_longestBelow c data i
  refine ⟨fun d h1 hle => hmax d h1 (by omega), hbest.imp_right fun ⟨h1, hlt, hrest⟩ => ⟨h1, by omega, hrest⟩⟩

/-! ## The encoder -/

theorem Config.matcher_ranges_of_legal {c : Config} (h : c.legal = true) :
    c.w ≤ 255 ∧ 1 ≤ c.minMatch ∧ c.maxMatch ≤ 255 := by
  simp only [Config.legal, Bool.and_eq_true, decide_eq_true_eq] at h
  omega

/-- At position i there is a match of length l at distance d: inside MAX_MATCH, the data and the window, byte for byte equal (R103). -/
structure MatchAt (c : Config) (data : List Byte) (i l d : Nat) : Prop where
  le_maxMatch : l ≤ c.maxMatch
  inside : i + l ≤ data.length
  one_le : 1 ≤ d
  le_window : d ≤ min c.w i
  copies : ∀ j, j < l → data[i - d + j]? = data[i + j]?

/-- The token of R102 at cursor i: the longest match there when it is long enough, else the literal there. -/
def GreedyToken (c : Config) (data : List Byte) (i : Nat) (tok : Token) : Prop :=
  ((longest c data i).1 ≥ c.minMatch → tok = .backRef (longest c data i).1 (longest c data i).2) ∧
  ((longest c data i).1 < c.minMatch → ∃ b, data[i]? = some b ∧ tok = .literal b)

/-- The tokens are the greedy ones from cursor i to the end of the data, each at the cursor the one before it reaches (R102). -/
inductive GreedyFrom (c : Config) (data : List Byte) : Nat → List Token → Prop where
  | done : GreedyFrom c data data.length []
  | step {i : Nat} {tok : Token} {toks : List Token} (hi : i < data.length) (htok : GreedyToken c data i tok)
      (hrest : GreedyFrom c data (i + tok.span) toks) : GreedyFrom c data i (tok :: toks)

@[simp] theorem spanOf_nil : spanOf [] = 0 := rfl

@[simp] theorem spanOf_cons (tok : Token) (toks : List Token) : spanOf (tok :: toks) = tok.span + spanOf toks := rfl

section
variable {c : Config} {data : List Byte} {i : Nat}

/-- A longest match that is not empty is a match. -/
theorem longest_matchAt (hi : i < data.length) (hpos : 0 < (longest c data i).1) :
    MatchAt c data i (longest c data i).1 (longest c data i).2 := by
  obtain ⟨-, hnone | ⟨hone, hlt, hlen, -, -⟩⟩ := longest_longestBelow c data i
  · simp [hnone] at hpos
  · rw [hlen]
    exact ⟨matchLength_le_maxMatch .., add_matchLength_le_length c data hi.le _, hone, by omega,
      fun j => getElem?_eq_of_lt_matchLength⟩

/-- With MIN_MATCH at least 1 (R6), a greedy token is the literal at the cursor or a match there. -/
theorem GreedyToken.literal_or_match {tok : Token} (hmin : 1 ≤ c.minMatch) (hi : i < data.length)
    (h : GreedyToken c data i tok) :
    (∃ b, tok = .literal b ∧ data[i]? = some b) ∨
      ∃ l d, tok = .backRef l d ∧ c.minMatch ≤ l ∧ MatchAt c data i l d := by
  obtain ⟨hmatch, hliteral⟩ := h
  rcases Nat.lt_or_ge (longest c data i).1 c.minMatch with hshort | hlong
  · obtain ⟨b, hb, rfl⟩ := hliteral hshort
    exact .inl ⟨b, rfl, hb⟩
  · exact .inr ⟨_, _, hmatch hlong, hlong, longest_matchAt hi (hmin.trans hlong)⟩

/-- A greedy token advances the cursor, and not beyond the end. -/
theorem GreedyToken.span_bounds {tok : Token} (hmin : 1 ≤ c.minMatch) (hi : i < data.length)
    (h : GreedyToken c data i tok) : 1 ≤ tok.span ∧ i + tok.span ≤ data.length := by
  obtain ⟨b, rfl, -⟩ | ⟨l, d, rfl, hl, hm⟩ := h.literal_or_match hmin hi
  · exact ⟨le_rfl, hi⟩
  · exact ⟨hmin.trans hl, hm.inside⟩

/-- Where data is left, the encoder emits the greedy token and goes on after it. -/
theorem lzEncFrom_succ (c : Config) (hi : i < data.length) (fuel : Nat) :
    ∃ tok, GreedyToken c data i tok ∧ lzEncFrom c data (fuel + 1) i = tok :: lzEncFrom c data fuel (i + tok.span) := by
  simp only [lzEncFrom, List.getElem?_eq_getElem hi]
  split
  next hlong => exact ⟨_, ⟨fun _ => rfl, fun hshort => absurd hlong hshort.not_ge⟩, rfl⟩
  next hshort => exact ⟨_, ⟨fun hlong => absurd hlong hshort, fun _ => ⟨_, List.getElem?_eq_getElem hi, rfl⟩⟩, rfl⟩

theorem lzEncFrom_at_end (c : Config) (data : List Byte) (fuel : Nat) : lzEncFrom c data fuel data.length = [] := by
  cases fuel with
  | zero => rfl
  | succ fuel => simp [lzEncFrom]

/-- As every token advances the cursor, fuel for each byte left is enough to reach the end. -/
theorem lzEncFrom_greedyFrom (hmin : 1 ≤ c.minMatch) {fuel : Nat} (hi : i ≤ data.length) (hfuel : data.length ≤ i + fuel) :
    GreedyFrom c data i (lzEncFrom c data fuel i) := by
  induction fuel generalizing i with
  | zero =>
    obtain rfl : i = data.length := hi.antisymm hfuel
    exact .done
  | succ fuel ih =>
    obtain rfl | hlt := hi.eq_or_lt
    · rw [lzEncFrom_at_end]
      exact .done
    · obtain ⟨tok, htok, heq⟩ := lzEncFrom_succ c hlt fuel
      obtain ⟨hadvance, hinside⟩ := htok.span_bounds hmin hlt
      rw [heq]
      exact .step hlt htok (ih hinside (by omega))

theorem lzEnc_greedyFrom (hmin : 1 ≤ c.minMatch) (data : List Byte) : GreedyFrom c data 0 (lzEnc c data) :=
  lzEncFrom_greedyFrom hmin (Nat.zero_le _) (Nat.zero_add _).ge

theorem GreedyFrom.add_spanOf {toks : List Token} (h : GreedyFrom c data i toks) : i + spanOf toks = data.length := by
  induction h with
  | done => rfl
  | step hi htok hrest ih => rw [spanOf_cons, ← Nat.add_assoc, ih]

/-- Each token is the greedy one at the cursor that the tokens before it reach. -/
theorem GreedyFrom.at_cursor {before after : List Token} {tok : Token}
    (h : GreedyFrom c data i (before ++ tok :: after)) :
    i + spanOf before < data.length ∧ GreedyToken c data (i + spanOf before) tok := by
  induction before generalizing i with
  | nil =>
    obtain _ | ⟨hi, htok, -⟩ := h
    exact ⟨hi, htok⟩
  | cons t before ih =>
    obtain _ | ⟨-, -, hrest⟩ := h
    rw [spanOf_cons, ← Nat.add_assoc]
    exact ih hrest

end

section
variable {c : Config} (hlegal : c.legal = true) (data : List Byte)
include hlegal

theorem spanOf_lzEnc : spanOf (lzEnc c data) = data.length := by
  obtain ⟨-, hmin, -⟩ := Config.matcher_ranges_of_legal hlegal
  simpa using (lzEnc_greedyFrom hmin data).add_spanOf

variable {data}

theorem lzEnc_at_cursor {before after : List Token} {tok : Token} (h : lzEnc c data = before ++ tok :: after) :
    spanOf before < data.length ∧ GreedyToken c data (spanOf before) tok := by
  obtain ⟨-, hmin, -⟩ := Config.matcher_ranges_of_legal hlegal
  have hgreedy := lzEnc_greedyFrom hmin data
  rw [h] at hgreedy
  simpa using hgreedy.at_cursor

/-- 40_window_matcher.md R103: every match the encoder makes is one, and long enough. -/
theorem matchAt_of_lzEnc {before after : List Token} {l d : Nat} (h : lzEnc c data = before ++ .backRef l d :: after) :
    c.minMatch ≤ l ∧ MatchAt c data (spanOf before) l d := by
  obtain ⟨-, hmin, -⟩ := Config.matcher_ranges_of_legal hlegal
  obtain ⟨hi, htok⟩ := lzEnc_at_cursor hlegal h
  obtain ⟨b, hb, -⟩ | ⟨l', d', heq, hl, hm⟩ := htok.literal_or_match hmin hi
  · cases hb
  · cases heq
    exact ⟨hl, hm⟩

/-- 40_window_matcher.md R103: no match reaches before the start of the data. -/
theorem lzEnc_starts_with_literal (hne : data ≠ []) : ∃ b rest, lzEnc c data = .literal b :: rest := by
  cases htoks : lzEnc c data with
  | nil =>
    have hspan := spanOf_lzEnc hlegal data
    rw [htoks, spanOf_nil] at hspan
    exact absurd (List.length_eq_zero_iff.1 hspan.symm) hne
  | cons tok rest =>
    cases tok with
    | literal b => exact ⟨b, rest, rfl⟩
    | backRef l d =>
      obtain ⟨-, hm⟩ := matchAt_of_lzEnc hlegal (before := []) htoks
      have hone := hm.one_le
      have hwindow := hm.le_window
      rw [spanOf_nil] at hwindow
      omega

end

/-- Settles O17: the encoder emits the greedy token at each cursor and stops at the end of the data. -/
theorem encoderIsGreedy : Obligations.EncoderIsGreedy := by
  unfold Obligations.EncoderIsGreedy
  exact fun c data hlegal => ⟨spanOf_lzEnc hlegal data, fun before tok after h => lzEnc_at_cursor hlegal h⟩

/-- Settles O18: a match is a longest one that is long enough, and at cursor 0 the window is empty. -/
theorem encoderOutputProperties : Obligations.EncoderOutputProperties := by
  unfold Obligations.EncoderOutputProperties
  refine fun c data hlegal => ⟨fun before l d after h => ?_, spanOf_lzEnc hlegal data, rfl, lzEnc_starts_with_literal hlegal⟩
  obtain ⟨hmin, hm⟩ := matchAt_of_lzEnc hlegal h
  have hinside := hm.inside
  exact ⟨hmin, le_min hm.le_maxMatch (by omega), hm.one_le, hm.le_window⟩

end Sys2Proof.Machine
end

section
/-! PROOFS. Replay (O20), the token decoder and its first failure (O21), and the round trip of the matcher (O22). -/

namespace Sys2Proof.Machine

/-! ## Replay -/

section
variable (d k : Nat) (out : List Byte)

theorem copyBack_length : (copyBack d k out).length = out.length + k := by
  induction k generalizing out with
  | zero => rfl
  | succ k ih => rw [copyBack, ih, List.length_append, List.length_singleton, Nat.add_right_comm, Nat.add_assoc]

theorem prefix_copyBack : out <+: copyBack d k out := by
  induction k generalizing out with
  | zero => exact List.prefix_refl _
  | succ k ih => exact (List.prefix_append _ _).trans (ih _)

variable {d k out}

/-- A match leaves the output before it as it was. -/
theorem getElem?_copyBack_of_lt {j : Nat} (hj : j < out.length) : (copyBack d k out)[j]? = out[j]? := by
  obtain ⟨copied, hcopied⟩ := prefix_copyBack d k out
  rw [← hcopied, List.getElem?_append_left hj]

/-- The byte a match copies first stands d bytes before the end of the output (40_window_matcher.md R106). -/
theorem getElem?_behind (hd : 1 ≤ d) (hle : d ≤ out.length) :
    out[out.length - d]? = some (out.getD (out.length - d) 0#8) := by
  have hlt : out.length - d < out.length := by omega
  simp [hlt]

/-- 40_window_matcher.md R106: every byte that a match appends equals the one d bytes before it. -/
theorem copyBack_copies (hd : 1 ≤ d) (hle : d ≤ out.length) {j : Nat} (hj : j < k) :
    (copyBack d k out)[out.length + j]? = (copyBack d k out)[out.length + j - d]? := by
  induction k generalizing out j with
  | zero => exact absurd hj (Nat.not_lt_zero j)
  | succ k ih =>
    rw [copyBack]
    set out' := out ++ [out.getD (out.length - d) 0#8] with hout'
    have hlen : out'.length = out.length + 1 := by simp [hout']
    cases j with
    | zero =>
      rw [Nat.add_zero, getElem?_copyBack_of_lt (by omega), getElem?_copyBack_of_lt (by omega), hout',
        List.getElem?_concat_length, List.getElem?_append_left (by omega), getElem?_behind hd hle]
    | succ j =>
      have hrest := ih (out := out') (by omega) (Nat.lt_of_succ_lt_succ hj)
      rwa [hlen, Nat.add_right_comm, Nat.add_assoc] at hrest

end

/-- Settles O20: a match appends one byte at a time, each read from the output as it then stands. -/
theorem replayCopiesByteByByte : Obligations.ReplayCopiesByteByByte := by
  unfold Obligations.ReplayCopiesByteByByte
  refine ⟨fun _ _ => rfl, fun out l d hd hle => ⟨copyBack_length d l out, ?_, fun j hj => copyBack_copies hd hle hj⟩⟩
  exact (List.prefix_iff_eq_take.1 (prefix_copyBack d l out)).symm

/-! ## Parsing one token -/

/-- 40_window_matcher.md R105: a token parses exactly from its bytes, whatever follows them. -/
theorem parseToken_eq_some {tb rest : List Byte} {tok : Token} :
    parseToken tb = some (tok, rest) ↔
      (∃ b, tok = .literal b ∧ tb = 0x00#8 :: b :: rest) ∨
        ∃ l d : Byte, tok = .backRef l.toNat d.toNat ∧ tb = 0x01#8 :: l :: d :: rest := by
  constructor
  · intro h
    unfold parseToken at h
    split at h
    · cases h
    · split_ifs at h with hliteral hmatch
      · subst hliteral
        split at h <;> cases h
        exact .inl ⟨_, rfl, rfl⟩
      · subst hmatch
        split at h <;> cases h
        exact .inr ⟨_, _, rfl, rfl⟩
  · rintro (⟨b, rfl, rfl⟩ | ⟨l, d, rfl, rfl⟩) <;> rfl

/-- 30_encoding.md R80: a parsed token has its size in bytes, which parse alone. -/
theorem parseToken_split {tb rest : List Byte} {tok : Token} (h : parseToken tb = some (tok, rest)) :
    ∃ one, tb = one ++ rest ∧ parseToken one = some (tok, []) := by
  obtain ⟨b, rfl, rfl⟩ | ⟨l, d, rfl, rfl⟩ := parseToken_eq_some.1 h
  · exact ⟨[0x00#8, b], rfl, rfl⟩
  · exact ⟨[0x01#8, l, d], rfl, rfl⟩

section
variable {one : List Byte} {tok : Token} (h : parseToken one = some (tok, []))
include h

theorem parseToken_append (rest : List Byte) : parseToken (one ++ rest) = some (tok, rest) := by
  obtain ⟨b, rfl, rfl⟩ | ⟨l, d, rfl, rfl⟩ := parseToken_eq_some.1 h <;> rfl

theorem length_eq_size_of_parseToken : one.length = tok.size := by
  obtain ⟨b, rfl, rfl⟩ | ⟨l, d, rfl, rfl⟩ := parseToken_eq_some.1 h <;> rfl

end

theorem Token.size_pos (tok : Token) : 1 ≤ tok.size := by cases tok <;> simp [Token.size]

/-! ## The decoder, one token at a time -/

/-- 40_window_matcher.md R107, check by check. -/
theorem Token.valid_backRef_iff {c : Config} {len l d : Nat} :
    Token.valid c len (.backRef l d) = true ↔ c.minMatch ≤ l ∧ l ≤ c.maxMatch ∧ 1 ≤ d ∧ d ≤ c.w ∧ d ≤ len := by
  simp [Token.valid, and_assoc]

theorem Token.valid_iff {c : Config} {len : Nat} {tok : Token} :
    tok.valid c len = true ↔
      ∀ l d, tok = .backRef l d → c.minMatch ≤ l ∧ l ≤ c.maxMatch ∧ 1 ≤ d ∧ d ≤ c.w ∧ d ≤ len := by
  cases tok with
  | literal b => simp [Token.valid]
  | backRef l d => simp [Token.valid_backRef_iff]

/-- No token can be taken from the bytes: they are truncated, have an unknown tag, or are a match that may not be replayed against an
output of length `len` (40_window_matcher.md R108). -/
def TokenFails (c : Config) (len : Nat) (tb : List Byte) : Prop :=
  parseToken tb = none ∨
    ∃ l d rest, parseToken tb = some (.backRef l d, rest) ∧
      ¬ (c.minMatch ≤ l ∧ l ≤ c.maxMatch ∧ 1 ≤ d ∧ d ≤ c.w ∧ d ≤ len)

/-- A token can be taken, or it fails. -/
theorem token_or_fails (c : Config) (len : Nat) (tb : List Byte) :
    (∃ tok rest, parseToken tb = some (tok, rest) ∧ tok.valid c len = true) ∨ TokenFails c len tb := by
  cases hparse : parseToken tb with
  | none => exact .inr (.inl hparse)
  | some r =>
    obtain ⟨tok, rest⟩ := r
    by_cases hvalid : tok.valid c len = true
    · exact .inl ⟨tok, rest, rfl, hvalid⟩
    · cases tok with
      | literal b => exact absurd rfl hvalid
      | backRef l d => exact .inr (.inr ⟨l, d, rest, hparse, mt Token.valid_backRef_iff.2 hvalid⟩)

section
variable {c : Config} {fuel p n : Nat} {tb out : List Byte}

@[simp] theorem lzDecFrom_nil : lzDecFrom c fuel p [] out n = .ok (out, n) := by
  cases fuel <;> rfl

theorem lzDecFrom_token {tok : Token} {rest : List Byte} (h : parseToken tb = some (tok, rest))
    (hvalid : tok.valid c out.length = true) :
    lzDecFrom c (fuel + 1) p tb out n = lzDecFrom c fuel (p + tok.size) rest (replay out tok) (n + 1) := by
  have hne : tb ≠ [] := by rintro rfl; cases h
  simp [lzDecFrom, hne, h, hvalid]

theorem lzDecFrom_fails (hne : tb ≠ []) (h : TokenFails c out.length tb) :
    lzDecFrom c (fuel + 1) p tb out n = .error (.corruptStream p) := by
  obtain hnone | ⟨l, d, rest, hparse, hbounds⟩ := h
  · simp [lzDecFrom, hne, hnone]
  · simp [lzDecFrom, hne, hparse, mt Token.valid_backRef_iff.1 hbounds]

end

/-! ## What the decoder accepts -/

/-- The stream is tokens that may each be replayed against what those before it give: `out`, from n tokens (40_window_matcher.md R108). -/
inductive Decodes (c : Config) : List Byte → List Byte → Nat → Prop where
  | nil : Decodes c [] [] 0
  | snoc {tb out one : List Byte} {n : Nat} {tok : Token} (h : Decodes c tb out n) (hparse : parseToken one = some (tok, []))
      (hvalid : tok.valid c out.length = true) : Decodes c (tb ++ one) (replay out tok) (n + 1)

section
variable {c : Config} {tb out suffix : List Byte} {n : Nat}

theorem Decodes.tokens_le_length (h : Decodes c tb out n) : n ≤ tb.length := by
  induction h with
  | nil => exact le_rfl
  | @snoc tb out one n tok _ hparse _ ih =>
    have hone := length_eq_size_of_parseToken hparse
    have hsize := tok.size_pos
    rw [List.length_append]
    omega

/-- The decoder passes a stream that decodes, and still has fuel for each byte after it. -/
theorem Decodes.lzDec_append (h : Decodes c tb out n) (suffix : List Byte) :
    ∃ fuel, suffix.length ≤ fuel ∧ lzDec c (tb ++ suffix) = lzDecFrom c fuel tb.length suffix out n := by
  induction h generalizing suffix with
  | nil => exact ⟨suffix.length, le_rfl, rfl⟩
  | @snoc tb out one n tok _ hparse hvalid ih =>
    obtain ⟨fuel, hfuel, heq⟩ := ih (one ++ suffix)
    have hone := length_eq_size_of_parseToken hparse
    have hsize := tok.size_pos
    rw [List.length_append] at hfuel
    obtain ⟨fuel, rfl⟩ : ∃ m, fuel = m + 1 := Nat.exists_eq_add_of_le' (by omega)
    refine ⟨fuel, by omega, ?_⟩
    rw [List.append_assoc, heq, lzDecFrom_token (parseToken_append hparse suffix) hvalid, List.length_append, hone]

theorem Decodes.lzDec_eq (h : Decodes c tb out n) : lzDec c tb = .ok (out, n) := by
  obtain ⟨fuel, -, heq⟩ := h.lzDec_append []
  simpa using heq

/-- The first token that fails decides, with its offset. -/
theorem Decodes.lzDec_fails (h : Decodes c tb out n) (hne : suffix ≠ []) (hfails : TokenFails c out.length suffix) :
    lzDec c (tb ++ suffix) = .error (.corruptStream tb.length) := by
  obtain ⟨fuel, hfuel, heq⟩ := h.lzDec_append suffix
  have hpos := List.length_pos_iff.2 hne
  obtain ⟨fuel, rfl⟩ : ∃ m, fuel = m + 1 := Nat.exists_eq_add_of_le' (by omega)
  exact heq.trans (lzDecFrom_fails hne hfails)

/-- After a part that decodes, either the rest decodes, too, or it has a first token that fails. -/
theorem Decodes.continues {c : Config} {tb out : List Byte} {n : Nat} (suffix : List Byte) (h : Decodes c tb out n) :
    (∃ out' n', Decodes c (tb ++ suffix) out' n') ∨
      ∃ before after out' n', tb ++ suffix = before ++ after ∧ after ≠ [] ∧ Decodes c before out' n' ∧
        TokenFails c out'.length after := by
  by_cases hne : suffix = []
  · exact .inl ⟨out, n, by simpa [hne] using h⟩
  · obtain ⟨tok, rest, hparse, hvalid⟩ | hfails := token_or_fails c out.length suffix
    · obtain ⟨one, hsplit, hone⟩ := parseToken_split hparse
      have hlt : rest.length < suffix.length := by
        rw [hsplit, List.length_append, length_eq_size_of_parseToken hone]
        exact Nat.lt_add_of_pos_left tok.size_pos
      rw [hsplit, ← List.append_assoc]
      exact Decodes.continues rest (h.snoc hone hvalid)
    · exact .inr ⟨tb, suffix, out, n, rfl, hne, h, hfails⟩
termination_by suffix.length

theorem decodes_or_fails (c : Config) (tb : List Byte) :
    (∃ out n, Decodes c tb out n) ∨
      ∃ before after out n, tb = before ++ after ∧ after ≠ [] ∧ Decodes c before out n ∧
        TokenFails c out.length after :=
  Decodes.nil.continues tb

theorem lzDec_eq_ok : lzDec c tb = .ok (out, n) ↔ Decodes c tb out n := by
  refine ⟨fun h => ?_, Decodes.lzDec_eq⟩
  obtain ⟨out', n', hdec⟩ | ⟨before, after, out', n', rfl, hne, hdec, hfails⟩ := decodes_or_fails c tb
  · rw [hdec.lzDec_eq] at h
    cases h
    exact hdec
  · rw [hdec.lzDec_fails hne hfails] at h
    cases h

/-- 40_window_matcher.md R108: an error is that of the first token that fails. -/
theorem lzDec_eq_error {e : CmdError} :
    lzDec c tb = .error e ↔ ∃ before after out n, tb = before ++ after ∧ after ≠ [] ∧ Decodes c before out n ∧
      TokenFails c out.length after ∧ e = .corruptStream before.length := by
  constructor
  · intro h
    obtain ⟨out, n, hdec⟩ | ⟨before, after, out, n, rfl, hne, hdec, hfails⟩ := decodes_or_fails c tb
    · rw [hdec.lzDec_eq] at h
      cases h
    · rw [hdec.lzDec_fails hne hfails] at h
      cases h
      exact ⟨before, after, out, n, rfl, hne, hdec, hfails, rfl⟩
  · rintro ⟨before, after, out, n, rfl, hne, hdec, hfails, rfl⟩
    exact hdec.lzDec_fails hne hfails

end

/-- Settles O21: the streams that decode are the lists of tokens that may be replayed, and any other has a first token that fails. -/
theorem decoderReplaysUntilFirstFailure : Obligations.DecoderReplaysUntilFirstFailure := by
  unfold Obligations.DecoderReplaysUntilFirstFailure
  refine fun c tb => ⟨rfl, fun out n one tok h hparse hbounds => ?_, fun e h => ?_, fun p => ⟨fun h => ?_, ?_⟩⟩
  · exact ((lzDec_eq_ok.1 h).snoc hparse (Token.valid_iff.2 hbounds)).lzDec_eq
  · obtain ⟨before, -, -, -, -, -, -, -, rfl⟩ := lzDec_eq_error.1 h
    exact ⟨_, rfl⟩
  · obtain ⟨before, after, out, n, rfl, hne, hdec, hfails, heq⟩ := lzDec_eq_error.1 h
    cases heq
    have hpos := List.length_pos_iff.2 hne
    refine ⟨by rw [List.length_append]; omega, out, n, ?_, ?_⟩
    · rw [List.take_left]
      exact hdec.lzDec_eq
    · rw [List.drop_left]
      exact hfails
  · rintro ⟨hp, out, n, hdec, hfails⟩
    have herr := lzDec_eq_error.2 ⟨tb.take p, tb.drop p, out, n, (List.take_append_drop p tb).symm,
      mt List.drop_eq_nil_iff.1 hp.not_ge, lzDec_eq_ok.1 hdec, hfails, rfl⟩
    rwa [List.length_take_of_le hp.le] at herr

/-! ## The round trip -/

section
variable {c : Config} {data : List Byte} {i : Nat}

/-- Copying a match after the first i bytes gives the next bytes of the data. -/
theorem copyBack_take {d : Nat} (k : Nat) (hd : 1 ≤ d) (hdi : d ≤ i) (hk : i + k ≤ data.length)
    (hcopies : ∀ j, j < k → data[i - d + j]? = data[i + j]?) : copyBack d k (data.take i) = data.take (i + k) := by
  induction k generalizing i with
  | zero => rfl
  | succ k ih =>
    have hlen : (data.take i).length = i := List.length_take_of_le (by omega)
    have hbyte : (data.take i).getD (i - d) 0#8 = data[i] := by
      have hfirst := hcopies 0 (Nat.succ_pos k)
      rw [Nat.add_zero, Nat.add_zero] at hfirst
      rw [List.getD_eq_getElem?_getD, List.getElem?_take_of_lt (by omega), hfirst, List.getElem?_eq_getElem (by omega),
        Option.getD_some]
    rw [copyBack, hlen, hbyte, List.take_concat_get', ih (by omega) (by omega)]
    · rw [Nat.add_right_comm, Nat.add_assoc]
    · intro j hj
      have hnext := hcopies (j + 1) (Nat.succ_lt_succ hj)
      rwa [show i - d + (j + 1) = i + 1 - d + j by omega, show i + (j + 1) = i + 1 + j by omega] at hnext

theorem MatchAt.replay_take {l d : Nat} (h : MatchAt c data i l d) :
    replay (data.take i) (.backRef l d) = data.take (i + l) :=
  copyBack_take l h.one_le (h.le_window.trans (Nat.min_le_right _ _)) h.inside h.copies

theorem parseToken_serToken_backRef {l d : Nat} (hl : l ≤ 255) (hd : d ≤ 255) :
    parseToken (serToken (.backRef l d)) = some (.backRef l d, []) := by
  refine parseToken_eq_some.2 (.inr ⟨BitVec.ofNat 8 l, BitVec.ofNat 8 d, ?_, rfl⟩)
  rw [BitVec.toNat_ofNat, BitVec.toNat_ofNat, Nat.mod_eq_of_lt (by omega), Nat.mod_eq_of_lt (by omega)]

/-- The token at cursor i is read back from its bytes, may be replayed against the first i bytes, and gives the bytes it stands for. -/
theorem GreedyToken.decodes {tok : Token} (hlegal : c.legal = true) (hi : i < data.length) (h : GreedyToken c data i tok) :
    parseToken (serToken tok) = some (tok, []) ∧ tok.valid c (data.take i).length = true ∧
      replay (data.take i) tok = data.take (i + tok.span) := by
  obtain ⟨hw, hmin, hmax⟩ := Config.matcher_ranges_of_legal hlegal
  obtain ⟨b, rfl, hb⟩ | ⟨l, d, rfl, hl, hm⟩ := h.literal_or_match hmin hi
  · obtain ⟨-, rfl⟩ := List.getElem?_eq_some_iff.1 hb
    exact ⟨rfl, rfl, List.take_concat_get' ..⟩
  · have hle := hm.le_maxMatch
    have hwindow := hm.le_window
    refine ⟨parseToken_serToken_backRef (by omega) (by omega), Token.valid_backRef_iff.2 ?_, hm.replay_take⟩
    rw [List.length_take_of_le hi.le]
    exact ⟨hl, hle, hm.one_le, by omega, by omega⟩

/-- After the tokens that give the first i bytes, the greedy tokens from cursor i on give the whole data. -/
theorem GreedyFrom.decodes {toks : List Token} {tb : List Byte} {n : Nat} (hlegal : c.legal = true)
    (h : GreedyFrom c data i toks) (hdec : Decodes c tb (data.take i) n) :
    Decodes c (tb ++ ser toks) data (n + toks.length) := by
  induction h generalizing tb n with
  | done => simpa using hdec
  | @step i tok toks hi htok _ ih =>
    obtain ⟨hparse, hvalid, hreplay⟩ := htok.decodes hlegal hi
    have hnext := hdec.snoc hparse hvalid
    rw [hreplay] at hnext
    rw [ser_cons, ← List.append_assoc, List.length_cons, Nat.add_comm toks.length, ← Nat.add_assoc]
    exact ih hnext

end

/-- Settles O22: each token of the encoder gives back the bytes it stands for. -/
theorem matcherRoundTrip : Obligations.MatcherRoundTrip := by
  unfold Obligations.MatcherRoundTrip
  intro c data hlegal
  obtain ⟨-, hmin, -⟩ := Config.matcher_ranges_of_legal hlegal
  simpa using ((lzEnc_greedyFrom hmin data).decodes hlegal Decodes.nil).lzDec_eq

end Sys2Proof.Machine
end

section
/-! PROOFS. The commands LZ_ENCODE (O41) and LZ_DECODE (O42), and for every command over IN how an error ends it. -/

namespace Sys2Proof.Machine

/-! ## A command that fails -/

/-- 60_exceptions.md R244: an error clears every item of its destination set. -/
theorem State.cleared_raiseError (s : State) (ds : List Dest) (e : CmdError) : State.Cleared ds (s.raiseError ds e) := by
  simp +contextual [State.Cleared, State.raiseError_outBuf, State.raiseError_outLen, State.raiseError_tokCount,
    State.raiseError_cb, State.raiseError_cbCount, State.raiseError_bitsBuf, State.raiseError_bitsLen, State.raiseError_pad,
    State.raiseError_modelBuf, State.raiseError_modelLen]

section
variable {s : State} {i : Instr}

theorem State.failsWith_of_exec {e : CmdError} (h : exec i s = .next (s.raiseError (destSet i) e)) :
    s.FailsWith i (destSet i) e.code e.info :=
  ⟨_, h, s.endedError_raiseError _ e, s.cleared_raiseError _ e, s.keepsAllBut_raiseError _ e⟩

theorem State.inOperand_tooLong (h : s.cfg.maxIn < s.inLen.toNat) : s.inOperand = .tooLong (.capacity .inBuf) := by
  simp [State.inOperand, h]

/-- 60_exceptions.md R246: a command over IN checks IN_LEN before it reads a byte. -/
theorem State.failsWith_inTooLong (hi : readsIn i = true) (h : s.cfg.maxIn < s.inLen.toNat) :
    s.FailsWith i (destSet i) 5#8 1#32 := by
  obtain ⟨body, hexec⟩ := exec_of_readsIn hi s
  refine State.failsWith_of_exec (e := .capacity .inBuf) ?_
  rw [hexec, State.inOperand_tooLong h]
  rfl

end

/-! ## The outputs of the two commands -/

/-- What a command with outputs OUT, OUT_LEN and TOK_COUNT ends with, when both registers can hold their numbers. -/
theorem State.ended_putOut_putTokCount (s : State) {bytes : List Byte} {n : Nat} (hlen : bytes.length < 2 ^ 32)
    (hn : n < 2 ^ 32) :
    let t := ((s.putOut bytes).putTokCount n).endDone
    t.EndedDone ∧ Memory.HoldsExactly t.outBuf bytes ∧ t.outLen.toNat = bytes.length ∧ t.tokCount.toNat = n ∧
      State.KeepsAllBut [.out, .outLen, .tokCount] s t ∧ State.KeepsTrailerFlags s t := by
  refine ⟨State.endedDone_endDone _, Memory.ofList_holdsExactly bytes, ?_, ?_, ?_, rfl, rfl⟩
  · exact (BitVec.toNat_ofNat _ _).trans (Nat.mod_eq_of_lt hlen)
  · exact (BitVec.toNat_ofNat _ _).trans (Nat.mod_eq_of_lt hn)
  · simp [State.KeepsAllBut, Memory.SameCells]

theorem Config.maxIn_lt_of_legal {c : Config} (h : c.legal = true) : c.maxIn < 2 ^ 32 := by
  simp only [Config.legal, Bool.and_eq_true, decide_eq_true_eq] at h
  omega

/-! ## LZ_ENCODE -/

/-- 30_encoding.md R80: a token has at least one byte. -/
theorem length_le_ser_length (toks : List Token) : toks.length ≤ (ser toks).length := by
  have hcount := List.length_eq_countP_add_countP Token.isLiteral (l := toks)
  have hlen := ser_length toks
  simp only [Bool.not_eq_true, Bool.decide_eq_false] at hcount
  omega

theorem lzEncodeBody_error {s : State} {data : List Byte} (h : s.cfg.maxOut < (ser (lzEnc s.cfg data)).length) :
    lzEncodeBody s data = .error (.capacity .outBuf) := by
  rw [lzEncodeBody, decide_eq_false h.not_ge, check_bind_false]

/-- Settles O41: the body's one check decides between the error and the outputs. -/
theorem lzEncodeCommand : Obligations.LzEncodeCommand := by
  unfold Obligations.LzEncodeCommand
  refine ⟨by decide, fun s hlegal => ⟨State.failsWith_inTooLong (i := .lzEncode) rfl, fun data hin hfits => ?_⟩⟩
  have hop := State.inOperand_eq hin hfits
  refine ⟨fun hlong => ?_, fun hout => ?_⟩
  · exact State.failsWith_of_exec (i := .lzEncode) (runCommand_error hop (lzEncodeBody_error hlong))
  · obtain ⟨hcap, -⟩ := Config.capacities_lt_of_legal hlegal
    have hlen := hout.trans_lt hcap
    exact ⟨_, runCommand_done hop (lzEncodeBody_ok.2 ⟨hout, rfl⟩),
      s.ended_putOut_putTokCount hlen ((length_le_ser_length _).trans_lt hlen)⟩

/-! ## LZ_DECODE -/

section
variable {s : State} {tb : List Byte}

theorem lzDecodeBody_error {e : CmdError} (h : lzDec s.cfg tb = .error e) : lzDecodeBody s tb = .error e := by
  rw [lzDecodeBody, h]
  rfl

theorem lzDecodeBody_outTooLong {r : List Byte × Nat} (h : lzDec s.cfg tb = .ok r) (hlong : s.cfg.maxOut < r.1.length) :
    lzDecodeBody s tb = .error (.capacity .outBuf) := by
  rw [lzDecodeBody, h]
  change (check (r.1.length ≤ s.cfg.maxOut) _ >>= _) = _
  rw [decide_eq_false hlong.not_ge, check_bind_false]

end

/-- Settles O42: the decoder's error, then the body's check, then the outputs; a token has at least one byte of the input. -/
theorem lzDecodeCommand : Obligations.LzDecodeCommand := by
  unfold Obligations.LzDecodeCommand
  refine ⟨by decide, fun s hlegal => ⟨State.failsWith_inTooLong (i := .lzDecode) rfl, fun tb hin hfits => ?_⟩⟩
  have hop := State.inOperand_eq hin hfits
  refine ⟨fun p herr => ?_, fun out ntok hdec => ⟨fun hlong => ?_, fun hout => ?_⟩⟩
  · exact State.failsWith_of_exec (i := .lzDecode) (runCommand_error hop (lzDecodeBody_error herr))
  · exact State.failsWith_of_exec (i := .lzDecode) (runCommand_error hop (lzDecodeBody_outTooLong hdec hlong))
  · obtain ⟨hcap, -⟩ := Config.capacities_lt_of_legal hlegal
    have hntok := (lzDec_eq_ok.1 hdec).tokens_le_length.trans hfits
    exact ⟨_, runCommand_done hop (lzDecodeBody_ok.2 ⟨_, hdec, hout, rfl⟩),
      s.ended_putOut_putTokCount (hout.trans_lt hcap) (hntok.trans_lt (Config.maxIn_lt_of_legal hlegal))⟩

end Sys2Proof.Machine
end

section
/-! PROOFS. The Frequency Model (O23) and the tree builder (O24). -/

namespace Sys2Proof.Machine

/-! ## The frequency table -/

theorem freqOf_concat (s : List Byte) (b : Byte) : freqOf (s ++ [b]) = FreqTable.bump (freqOf s) b := by
  simp [freqOf]

/-- A new symbol gets the last entry; a counted one keeps its place. -/
theorem FreqTable.symbols_bump (t : FreqTable) (b : Byte) :
    (FreqTable.bump t b).map Prod.fst = if b ∈ t.map Prod.fst then t.map Prod.fst else t.map Prod.fst ++ [b] := by
  induction t with
  | nil => rfl
  | cons e t ih =>
    by_cases he : e.1 = b
    · simp [FreqTable.bump, he]
    · by_cases hb : b ∈ t.map Prod.fst
      · simp [FreqTable.bump, he, ih, hb]
      · simp [FreqTable.bump, he, ih, hb, Ne.symm he]

theorem FreqTable.count_bump (t : FreqTable) (b x : Byte) :
    FreqTable.count (FreqTable.bump t b) x = FreqTable.count t x + if b = x then 1 else 0 := by
  induction t with
  | nil => simp [FreqTable.bump, FreqTable.count]
  | cons e t ih =>
    by_cases he : e.1 = b
    · subst he
      by_cases hx : e.1 = x <;> simp [FreqTable.bump, FreqTable.count, hx]
    · by_cases hx : e.1 = x
      · subst hx
        simp [FreqTable.bump, FreqTable.count, he, Ne.symm he]
      · simp [FreqTable.bump, FreqTable.count, he, hx, ih]

theorem FreqTable.total_bump (t : FreqTable) (b : Byte) : FreqTable.total (FreqTable.bump t b) = FreqTable.total t + 1 := by
  induction t with
  | nil => rfl
  | cons e t ih =>
    by_cases he : e.1 = b
    · simp [FreqTable.bump, FreqTable.total, he, Nat.add_right_comm]
    · simp only [FreqTable.total] at ih
      simp [FreqTable.bump, FreqTable.total, he, ih, Nat.add_assoc]

/-- In a table that repeats no symbol, an entry is a symbol with its count. -/
theorem FreqTable.mem_iff_count {t : FreqTable} (h : (t.map Prod.fst).Nodup) {b : Byte} {n : Nat} :
    (b, n) ∈ t ↔ b ∈ t.map Prod.fst ∧ n = FreqTable.count t b := by
  induction t with
  | nil => simp
  | cons e t ih =>
    obtain ⟨x, m⟩ := e
    obtain ⟨hnew, hrest⟩ := List.nodup_cons.1 h
    rw [List.mem_cons, ih hrest, List.map_cons, List.mem_cons, FreqTable.count]
    by_cases hx : x = b
    · subst hx
      simp [hnew]
    · simp [hx, Ne.symm hx]

theorem mem_freqOf_symbols {s : List Byte} {b : Byte} : b ∈ (freqOf s).map Prod.fst ↔ b ∈ s := by
  induction s using List.reverseRecOn with
  | nil => rfl
  | append_singleton s a ih =>
    rw [freqOf_concat, FreqTable.mem_symbols_bump, ih, List.mem_append, List.mem_singleton]
    exact or_comm

theorem count_freqOf (s : List Byte) (b : Byte) : FreqTable.count (freqOf s) b = s.count b := by
  induction s using List.reverseRecOn with
  | nil => rfl
  | append_singleton s a ih =>
    rw [freqOf_concat, FreqTable.count_bump, ih, List.count_append, List.count_singleton]
    simp

theorem total_freqOf (s : List Byte) : FreqTable.total (freqOf s) = s.length := by
  induction s using List.reverseRecOn with
  | nil => rfl
  | append_singleton s a ih => rw [freqOf_concat, FreqTable.total_bump, ih, List.length_append, List.length_singleton]

/-- 41_prefix_coder.md R130: a symbol's entry stands where its first occurrence puts it. -/
theorem freqOf_symbols_pairwise (s : List Byte) :
    ((freqOf s).map Prod.fst).Pairwise (fun x y => s.idxOf x < s.idxOf y) := by
  induction s using List.reverseRecOn with
  | nil => exact .nil
  | append_singleton s a ih =>
    have hold : ∀ x ∈ (freqOf s).map Prod.fst, (s ++ [a]).idxOf x = s.idxOf x :=
      fun x hx => List.idxOf_append_of_mem (mem_freqOf_symbols.1 hx)
    have hkept : ((freqOf s).map Prod.fst).Pairwise (fun x y => (s ++ [a]).idxOf x < (s ++ [a]).idxOf y) :=
      ih.imp_of_mem fun hx hy hxy => by rwa [hold _ hx, hold _ hy]
    rw [freqOf_concat, FreqTable.symbols_bump]
    split
    · exact hkept
    next hnew =>
      refine List.pairwise_append.2 ⟨hkept, List.pairwise_singleton _ _, fun x hx y hy => ?_⟩
      obtain rfl := List.mem_singleton.1 hy
      have hfirst : s.idxOf x < s.length := List.idxOf_lt_length_of_mem (mem_freqOf_symbols.1 hx)
      rw [hold x hx, List.idxOf_append_of_notMem (mt mem_freqOf_symbols.2 hnew)]
      omega

/-- Settles O23: symbols, counts, order and total of FREQ, each by induction on the last symbol counted. -/
theorem frequencyTableFirstSeen : Obligations.FrequencyTableFirstSeen := by
  unfold Obligations.FrequencyTableFirstSeen
  refine ⟨rfl, fun s => ⟨freqOf_nodup s, fun b n => ?_, freqOf_symbols_pairwise s, total_freqOf s⟩⟩
  rw [FreqTable.mem_iff_count (freqOf_nodup s), mem_freqOf_symbols, count_freqOf]

/-! ## The stable sort -/

theorem mem_insertByWeight {t u : Tree} {ts : List Tree} : u ∈ insertByWeight t ts ↔ u = t ∨ u ∈ ts := by
  rw [(insertByWeight_perm t ts).mem_iff, List.mem_cons]

theorem insertByWeight_sorted {ts : List Tree} (h : ts.Pairwise (fun a b => a.weight ≤ b.weight)) (t : Tree) :
    (insertByWeight t ts).Pairwise (fun a b => a.weight ≤ b.weight) := by
  induction ts with
  | nil => exact List.pairwise_singleton _ _
  | cons u us ih =>
    obtain ⟨hu, hus⟩ := List.pairwise_cons.1 h
    unfold insertByWeight
    split
    next hle =>
      refine List.pairwise_cons.2 ⟨fun v hv => ?_, h⟩
      obtain rfl | hv := List.mem_cons.1 hv
      · exact hle
      · exact hle.trans (hu v hv)
    next hgt =>
      refine List.pairwise_cons.2 ⟨fun v hv => ?_, ih hus⟩
      obtain rfl | hv := mem_insertByWeight.1 hv
      · exact (Nat.lt_of_not_le hgt).le
      · exact hu v hv

theorem sortByWeight_sorted (ts : List Tree) : (sortByWeight ts).Pairwise (fun a b => a.weight ≤ b.weight) := by
  induction ts with
  | nil => exact .nil
  | cons t ts ih => exact insertByWeight_sorted ih t

/-- A node passes only lighter ones, so it stays before those of its own weight. -/
theorem filter_insertByWeight (t : Tree) (ts : List Tree) (w : Nat) :
    (insertByWeight t ts).filter (fun u => u.weight = w) = (t :: ts).filter (fun u => u.weight = w) := by
  induction ts with
  | nil => rfl
  | cons u us ih =>
    unfold insertByWeight
    split
    · rfl
    next hgt =>
      by_cases ht : t.weight = w
      · have hu : u.weight ≠ w := by omega
        simpa [ht, hu] using ih
      · rw [List.filter_cons, ih]
        simp [List.filter_cons, ht]

theorem filter_sortByWeight (ts : List Tree) (w : Nat) :
    (sortByWeight ts).filter (fun t => t.weight = w) = ts.filter (fun t => t.weight = w) := by
  induction ts with
  | nil => rfl
  | cons t ts ih => rw [sortByWeight, filter_insertByWeight, List.filter_cons, List.filter_cons, ih]

theorem length_sortByWeight (ts : List Tree) : (sortByWeight ts).length = ts.length := (sortByWeight_perm ts).length_eq

/-! ## Merging -/

theorem exists_sortByWeight_eq_cons_cons {ts : List Tree} (h : 2 ≤ ts.length) :
    ∃ a b rest, sortByWeight ts = a :: b :: rest := by
  have hlen := length_sortByWeight ts
  match hsort : sortByWeight ts with
  | [] | [_] => simp [hsort] at hlen; omega
  | a :: b :: rest => exact ⟨a, b, rest, rfl⟩

theorem mergeNodes_succ {ts rest : List Tree} {a b : Tree} (h : sortByWeight ts = a :: b :: rest) (fuel : Nat) :
    mergeNodes (fuel + 1) ts = mergeNodes fuel (rest ++ [.node (a.weight + b.weight) a b]) := by
  rw [mergeNodes, h]

theorem mergeNodes_singleton (t : Tree) (fuel : Nat) : mergeNodes fuel [t] = [t] := by
  cases fuel <;> rfl

/-- 41_prefix_coder.md R132: each merge leaves one node less, and the node it makes weighs what its two children weigh. -/
theorem mergeNodes_eq_singleton {fuel : Nat} {ts : List Tree} (hne : ts ≠ []) (hfuel : ts.length ≤ fuel + 1)
    (hadd : ∀ t ∈ ts, t.WeightsAdd) : ∃ t, mergeNodes fuel ts = [t] ∧ t.WeightsAdd := by
  induction fuel generalizing ts with
  | zero =>
    obtain ⟨t, rfl⟩ := List.length_eq_one_iff.1 (Nat.le_antisymm hfuel (List.length_pos_iff.2 hne))
    exact ⟨t, rfl, hadd t (List.mem_singleton_self t)⟩
  | succ fuel ih =>
    rcases Nat.lt_or_ge ts.length 2 with hone | htwo
    · obtain ⟨t, rfl⟩ := List.length_eq_one_iff.1 (Nat.le_antisymm (by omega) (List.length_pos_iff.2 hne))
      exact ⟨t, mergeNodes_singleton t _, hadd t (List.mem_singleton_self t)⟩
    · obtain ⟨a, b, rest, hsort⟩ := exists_sortByWeight_eq_cons_cons htwo
      have hsorted : ∀ t ∈ a :: b :: rest, t.WeightsAdd := fun t ht =>
        hadd t ((sortByWeight_perm ts).mem_iff.1 (hsort ▸ ht))
      have hlen := length_sortByWeight ts
      rw [hsort] at hlen
      simp only [List.length_cons] at hlen
      rw [mergeNodes_succ hsort]
      refine ih (by simp) (by simp; omega) fun t ht => ?_
      rcases List.mem_append.1 ht with ht | ht
      · exact hsorted t (by simp [ht])
      · obtain rfl := List.mem_singleton.1 ht
        exact ⟨rfl, hsorted a (by simp), hsorted b (by simp)⟩

theorem Tree.WeightsAdd.weight_eq {t : Tree} (h : t.WeightsAdd) : t.weight = FreqTable.total t.leaves := by
  induction t with
  | leaf s w => simp [Tree.weight, Tree.leaves, FreqTable.total]
  | node w l r ihl ihr =>
    obtain ⟨hw, hl, hr⟩ := h
    rw [Tree.weight, hw, ihl hl, ihr hr]
    simp [Tree.leaves, FreqTable.total]

theorem FreqTable.total_eq_of_perm {t u : FreqTable} (h : t.Perm u) : FreqTable.total t = FreqTable.total u :=
  (h.map Prod.snd).sum_eq

/-- 41_prefix_coder.md R132: a table with an entry is merged to one tree with one leaf per entry. -/
theorem buildTree_eq_some {freq : FreqTable} (h : freq ≠ []) :
    ∃ t, mergeNodes freq.length (freq.map (fun e => .leaf e.1 e.2)) = [t] ∧ buildTree freq = some t ∧
      t.leaves.Perm freq ∧ t.WeightsAdd := by
  have hleaf : ∀ t ∈ freq.map (fun e => Tree.leaf e.1 e.2), t.WeightsAdd := by
    intro t ht
    obtain ⟨e, -, rfl⟩ := List.mem_map.1 ht
    trivial
  obtain ⟨t, hmerge, hadd⟩ := mergeNodes_eq_singleton (fuel := freq.length)
    (ts := freq.map (fun e => Tree.leaf e.1 e.2)) (by simpa using h) (by simp) hleaf
  have hperm := mergeNodes_leaves_perm freq.length (freq.map (fun e => .leaf e.1 e.2))
  rw [hmerge] at hperm
  exact ⟨t, hmerge, by simp [buildTree, hmerge], by simpa [List.flatMap_map, Tree.leaves] using hperm, hadd⟩

/-- Settles O24: the sort by insertion, the merges by what one of them does to the list of nodes. -/
theorem treeBuilderMergesStably : Obligations.TreeBuilderMergesStably := by
  unfold Obligations.TreeBuilderMergesStably
  refine ⟨fun ts => ⟨sortByWeight_perm ts, sortByWeight_sorted ts, filter_sortByWeight ts⟩, fun ts fuel hlen => ?_,
    mergeNodes_singleton, rfl, fun freq hne => ?_⟩
  · obtain ⟨a, b, rest, hsort⟩ := exists_sortByWeight_eq_cons_cons hlen
    exact ⟨a, b, rest, hsort, mergeNodes_succ hsort fuel⟩
  · obtain ⟨t, hmerge, hbuild, hleaves, hadd⟩ := buildTree_eq_some hne
    exact ⟨t, hmerge, hbuild, hleaves, hadd, hadd.weight_eq.trans (FreqTable.total_eq_of_perm hleaves)⟩

end Sys2Proof.Machine
end

section
/-! PROOFS. The codes of a tree (O25), the Huffman encoder (O29) and decoder (O30), what both do with a generated codebook
(O26), and why a compression meets no unknown symbol (O35). -/

namespace Sys2Proof.Machine

/-! ## Codes as paths -/

/-- 41_prefix_coder.md R134: below a node with path `path`, a code goes on from it along the tree to a leaf. -/
theorem mem_codesFrom_iff_follow {path code : Code} {t : Tree} {b : Byte} :
    (b, code) ∈ codesFrom path t ↔ ∃ c, code = path ++ c ∧ t.follow c = some b := by
  induction t generalizing path with
  | leaf s w =>
    constructor
    · intro h
      obtain ⟨rfl, rfl⟩ := Prod.mk.inj (List.mem_singleton.1 h)
      exact ⟨[], (List.append_nil _).symm, rfl⟩
    · rintro ⟨c, rfl, h⟩
      cases c with
      | nil => cases h; simp [codesFrom]
      | cons d c => cases h
  | node w l r ihl ihr =>
    rw [codesFrom, List.mem_append, ihl, ihr]
    constructor
    · rintro (⟨c, rfl, h⟩ | ⟨c, rfl, h⟩)
      · exact ⟨false :: c, by simp, h⟩
      · exact ⟨true :: c, by simp, h⟩
    · rintro ⟨c, rfl, h⟩
      match c, h with
      | false :: c, h => exact .inl ⟨c, by simp, h⟩
      | true :: c, h => exact .inr ⟨c, by simp, h⟩

theorem freqOf_replicate (n : Nat) (b : Byte) : freqOf (List.replicate (n + 1) b) = [(b, n + 1)] := by
  induction n with
  | zero => rfl
  | succ n ih => rw [List.replicate_succ', freqOf_concat, ih, FreqTable.bump, if_pos rfl]

/-- Settles O25: the walk below the root, from the empty path. -/
theorem codesAreRootToLeafPaths : Obligations.CodesAreRootToLeafPaths := by
  unfold Obligations.CodesAreRootToLeafPaths
  refine ⟨rfl, fun _ _ => rfl, fun w l r => ⟨codesFrom_symbols [] _, fun b code => ?_⟩, fun b n => ?_⟩
  · exact mem_codesFrom_iff_follow.trans (by simp)
  · rw [freqOf_replicate]
    rfl

/-! ## Looking up a codebook -/

section
variable {cb : Codebook} {b : Byte} {code : Code}

theorem codeOf_eq_none : codeOf cb b = none ↔ b ∉ cb.map Prod.fst := by
  induction cb with
  | nil => simp [codeOf]
  | cons e cb ih =>
    by_cases he : e.1 = b
    · simp [codeOf, he]
    · simp [codeOf, he, ih, Ne.symm he]

theorem mem_of_codeOf (h : codeOf cb b = some code) : (b, code) ∈ cb := by
  induction cb with
  | nil => cases h
  | cons e cb ih =>
    by_cases he : e.1 = b
    · simp only [codeOf, if_pos he, Option.some.injEq] at h
      exact List.mem_cons.2 (.inl (Prod.ext he.symm h.symm))
    · rw [codeOf, if_neg he] at h
      exact List.mem_cons_of_mem _ (ih h)

theorem symbolOf_eq_none : symbolOf cb code = none ↔ ∀ e ∈ cb, e.2 ≠ code := by
  induction cb with
  | nil => simp [symbolOf]
  | cons e cb ih => by_cases he : e.2 = code <;> simp [symbolOf, he, ih]

theorem mem_of_symbolOf (h : symbolOf cb code = some b) : (b, code) ∈ cb := by
  induction cb with
  | nil => cases h
  | cons e cb ih =>
    by_cases he : e.2 = code
    · simp only [symbolOf, if_pos he, Option.some.injEq] at h
      exact List.mem_cons.2 (.inl (Prod.ext h.symm he.symm))
    · rw [symbolOf, if_neg he] at h
      exact List.mem_cons_of_mem _ (ih h)

/-- 00_scope.md R14: a code has a last bit. -/
theorem Codebook.Valid.exists_concat (hvalid : Codebook.Valid cb) (hmem : (b, code) ∈ cb) : ∃ c d, code = c ++ [d] := by
  obtain ⟨-, -, hlens⟩ := hvalid
  obtain ⟨hlen, -⟩ := hlens _ hmem
  exact (List.eq_nil_or_concat' code).resolve_left (List.length_pos_iff.1 hlen)

/-- 00_scope.md R14: an entry of a codebook is the only one with its code. -/
theorem symbolOf_eq_some (hcodes : (cb.map Prod.snd).Nodup) (h : (b, code) ∈ cb) : symbolOf cb code = some b := by
  cases hs : symbolOf cb code with
  | none => exact absurd rfl (symbolOf_eq_none.1 hs _ h)
  | some a =>
    obtain ⟨rfl, -⟩ := Prod.mk.inj (List.inj_on_of_nodup_map hcodes (mem_of_symbolOf hs) h rfl)
    rfl

end

/-! ## The encoder -/

section
variable {cb : Codebook} {b : Byte} {s : List Byte}

theorem hufEnc_cons_eq_ok {bits : List Bool} : hufEnc cb (b :: s) = .ok bits ↔
    ∃ code rest, codeOf cb b = some code ∧ hufEnc cb s = .ok rest ∧ bits = code ++ rest := by
  cases hb : codeOf cb b <;> cases hs : hufEnc cb s <;> simp [hufEnc, hb, hs, eq_comm]

theorem hufEnc_cons_eq_error {e : CmdError} : hufEnc cb (b :: s) = .error e ↔
    (codeOf cb b = none ∧ e = .unknownSymbol b) ∨ (codeOf cb b ≠ none ∧ hufEnc cb s = .error e) := by
  cases hb : codeOf cb b <;> cases hs : hufEnc cb s <;> simp [hufEnc, hb, hs, eq_comm]

/-- 41_prefix_coder.md R138: the codes, joined in input order. -/
theorem hufEnc_eq_ok {bits : List Bool} :
    hufEnc cb s = .ok bits ↔ ∃ codes : List Code, s.map (codeOf cb) = codes.map some ∧ bits = codes.flatten := by
  induction s generalizing bits with
  | nil =>
    constructor
    · rintro ⟨⟩
      exact ⟨[], rfl, rfl⟩
    · rintro ⟨codes, hcodes, rfl⟩
      rw [List.map_eq_nil_iff.1 hcodes.symm]
      rfl
  | cons b s ih =>
    rw [hufEnc_cons_eq_ok]
    constructor
    · rintro ⟨code, rest, hb, hs, rfl⟩
      obtain ⟨codes, hcodes, rfl⟩ := ih.1 hs
      exact ⟨code :: codes, by simp [hb, hcodes], rfl⟩
    · rintro ⟨codes, hcodes, rfl⟩
      cases codes with
      | nil => cases hcodes
      | cons code codes =>
        obtain ⟨hb, hs⟩ := List.cons_eq_cons.1 hcodes
        exact ⟨code, codes.flatten, hb, ih.2 ⟨codes, hs, rfl⟩, rfl⟩

/-- 41_prefix_coder.md R139: the first symbol with no entry. -/
theorem hufEnc_eq_error {e : CmdError} :
    hufEnc cb s = .error e ↔ ∃ before b after, s = before ++ b :: after ∧
      (∀ x ∈ before, codeOf cb x ≠ none) ∧ codeOf cb b = none ∧ e = .unknownSymbol b := by
  induction s with
  | nil => simp [hufEnc]
  | cons a s ih =>
    rw [hufEnc_cons_eq_error, ih]
    constructor
    · rintro (⟨ha, rfl⟩ | ⟨ha, before, b, after, rfl, hbefore, hb, rfl⟩)
      · exact ⟨[], a, s, rfl, by simp, ha, rfl⟩
      · exact ⟨a :: before, b, after, rfl, List.forall_mem_cons.2 ⟨ha, hbefore⟩, hb, rfl⟩
    · rintro ⟨before, b, after, heq, hbefore, hb, rfl⟩
      cases before with
      | nil =>
        obtain ⟨rfl, rfl⟩ := List.cons_eq_cons.1 heq
        exact .inl ⟨hb, rfl⟩
      | cons x before =>
        obtain ⟨rfl, rfl⟩ := List.cons_eq_cons.1 heq
        obtain ⟨ha, hbefore⟩ := List.forall_mem_cons.1 hbefore
        exact .inr ⟨ha, before, b, after, rfl, hbefore, hb, rfl⟩

theorem exists_hufEnc_eq_ok (h : ∀ b ∈ s, b ∈ cb.map Prod.fst) : ∃ bits, hufEnc cb s = .ok bits := by
  cases henc : hufEnc cb s with
  | ok bits => exact ⟨bits, rfl⟩
  | error e =>
    obtain ⟨before, b, after, rfl, -, hb, -⟩ := hufEnc_eq_error.1 henc
    exact absurd (h b (by simp)) (codeOf_eq_none.1 hb)

end

/-- Settles O29: both ways an encoding ends, by induction on the input. -/
theorem encoderConcatenatesCodes : Obligations.EncoderConcatenatesCodes := by
  unfold Obligations.EncoderConcatenatesCodes
  exact fun cb s => ⟨fun bits => hufEnc_eq_ok, fun e => hufEnc_eq_error⟩

/-! ## The decoder -/

/-- No code of the codebook is a non-empty start of the bits: what the decoder's buffer holds. -/
def NoCodeStarts (cb : Codebook) (bits : Code) : Prop := ∀ c, c <+: bits → c ≠ [] → symbolOf cb c = none

section
variable {cb : Codebook} {buf c : Code}

theorem noCodeStarts_nil (cb : Codebook) : NoCodeStarts cb [] := fun _ hpre hne => absurd (List.prefix_nil.1 hpre) hne

theorem NoCodeStarts.concat (h : NoCodeStarts cb buf) {bit : Bool} (hbit : symbolOf cb (buf ++ [bit]) = none) :
    NoCodeStarts cb (buf ++ [bit]) := fun p hpre hne =>
  (List.prefix_concat_iff.1 hpre).elim (fun heq => heq ▸ hbit) (fun hpre => h p hpre hne)

theorem noCodeStarts_of_take (h : ∀ k, 0 < k → k ≤ c.length → ∀ e ∈ cb, e.2 ≠ c.take k) : NoCodeStarts cb c := by
  intro p hpre hne
  rw [symbolOf_eq_none, List.prefix_iff_eq_take.1 hpre]
  exact h p.length (List.length_pos_iff.2 hne) hpre.length_le

/-- 41_prefix_coder.md R140: while no start of the bits is a code, the buffer takes them up. -/
theorem hufDecFrom_append (h : NoCodeStarts cb (buf ++ c)) (bits : List Bool) :
    hufDecFrom cb buf (c ++ bits) = hufDecFrom cb (buf ++ c) bits := by
  induction c generalizing buf with
  | nil => simp
  | cons d c ih =>
    rw [List.append_cons] at h
    have hd : symbolOf cb (buf ++ [d]) = none := h _ (List.prefix_append _ _) (by simp)
    rw [List.cons_append, hufDecFrom, hd, List.append_cons buf d c]
    exact ih h

/-- 41_prefix_coder.md R140: a code no start of which is a code gives its symbol and empties the buffer. -/
theorem hufDec_code_append {b : Byte} {d : Bool} (hcodes : (cb.map Prod.snd).Nodup) (hmem : (b, c ++ [d]) ∈ cb)
    (h : NoCodeStarts cb c) (bits : List Bool) : hufDec cb (c ++ [d] ++ bits) = b :: hufDec cb bits := by
  rw [hufDec, List.append_assoc, hufDecFrom_append h, List.singleton_append, List.nil_append, hufDecFrom,
    symbolOf_eq_some hcodes hmem]
  rfl

/-- 41_prefix_coder.md R141: bits that complete no code are discarded. -/
theorem hufDec_eq_nil (h : NoCodeStarts cb c) : hufDec cb c = [] := by
  simpa [hufDec, hufDecFrom] using hufDecFrom_append (buf := []) h []

/-- 41_prefix_coder.md R140: the decoder emits a symbol only by a code of which no proper start is a code. -/
theorem entry_of_mem_hufDecFrom {bits : List Bool} {b : Byte} (hbuf : NoCodeStarts cb buf)
    (hmem : b ∈ hufDecFrom cb buf bits) : ∃ c d, (b, c ++ [d]) ∈ cb ∧ NoCodeStarts cb c := by
  induction bits generalizing buf with
  | nil => cases hmem
  | cons bit bits ih =>
    rw [hufDecFrom] at hmem
    split at hmem
    next a ha =>
      obtain rfl | hmem := List.mem_cons.1 hmem
      · exact ⟨buf, bit, mem_of_symbolOf ha, hbuf⟩
      · exact ih (noCodeStarts_nil cb) hmem
    next hnone => exact ih (hbuf.concat hnone) hmem

end

/-- Settles O30: the buffer holds bits no start of which is a code. -/
theorem greedyDecoding : Obligations.GreedyDecoding := by
  unfold Obligations.GreedyDecoding
  refine ⟨fun cb b code rest hvalid hmem h => ?_, fun cb bits h => hufDec_eq_nil (noCodeStarts_of_take h),
    fun cb e f bits hvalid he hf hpre hne hemit => ?_, fun bits => hufDec_eq_nil fun _ _ _ => rfl⟩
  · obtain ⟨c, d, rfl⟩ := hvalid.exists_concat hmem
    obtain ⟨-, hcodes, -⟩ := hvalid
    refine hufDec_code_append hcodes hmem (noCodeStarts_of_take fun k hpos hle => ?_) rest
    simpa [List.take_append_of_le_length hle] using h k hpos (by simpa using Nat.lt_succ_of_le hle)
  · obtain ⟨hsyms, -, hlens⟩ := hvalid
    obtain ⟨c, d, hmem, hstarts⟩ := entry_of_mem_hufDecFrom (noCodeStarts_nil cb) hemit
    have hf_code : f.2 = c ++ [d] := congrArg Prod.snd (List.inj_on_of_nodup_map hsyms hf hmem rfl)
    rw [hf_code] at hpre hne
    have he_start : e.2 <+: c := (List.prefix_concat_iff.1 hpre).resolve_left hne
    have he_ne : e.2 ≠ [] := List.length_pos_iff.1 (hlens e he).1
    exact symbolOf_eq_none.1 (hstarts e.2 he_start he_ne) e he rfl

/-! ## The round trip -/

section
variable {cb : Codebook}

/-- 41_prefix_coder.md R142: where no code starts another, the bits before a code's last complete none. -/
theorem Codebook.PrefixFree.noCodeStarts (h : Codebook.PrefixFree cb) {b : Byte} {c : Code} {d : Bool}
    (hmem : (b, c ++ [d]) ∈ cb) : NoCodeStarts cb c := by
  intro p hpre _
  refine symbolOf_eq_none.2 fun e he heq => ?_
  subst heq
  have hne : e ≠ (b, c ++ [d]) := by
    rintro rfl
    simpa using hpre.length_le
  have hsymm : Std.Symm fun e f : Byte × Code => ¬ e.2 <+: f.2 ∧ ¬ f.2 <+: e.2 := ⟨fun _ _ => And.symm⟩
  exact (List.Pairwise.forall h he hmem hne).1 (hpre.trans (List.prefix_append _ _))

/-- 41_prefix_coder.md R142: decoding the encoding gives the symbols back. -/
theorem hufDec_of_hufEnc (hvalid : Codebook.Valid cb) (hfree : Codebook.PrefixFree cb) {s : List Byte} {bits : List Bool}
    (h : hufEnc cb s = .ok bits) : hufDec cb bits = s := by
  induction s generalizing bits with
  | nil => cases h; rfl
  | cons b s ih =>
    obtain ⟨code, rest, hcode, hrest, rfl⟩ := hufEnc_cons_eq_ok.1 h
    have hmem := mem_of_codeOf hcode
    obtain ⟨c, d, rfl⟩ := hvalid.exists_concat hmem
    obtain ⟨-, hcodes, -⟩ := hvalid
    rw [hufDec_code_append hcodes hmem (hfree.noCodeStarts hmem), ih hrest]

end

/-! ## The codebook of a table -/

theorem codebookOf_prefixFree (freq : FreqTable) : Codebook.PrefixFree (codebookOf freq) := by
  unfold codebookOf
  match buildTree freq with
  | none => exact .nil
  | some (.leaf s w) => exact List.pairwise_singleton _ _
  | some (.node w l r) => exact codesFrom_prefixFree [] _

theorem genCodes_symbols (t : Tree) : (genCodes (some t)).map Prod.fst = t.leaves.map Prod.fst := by
  cases t with
  | leaf s w => rfl
  | node w l r => exact codesFrom_symbols [] _

/-- 41_prefix_coder.md R142: one entry per entry of the table. -/
theorem codebookOf_symbols_perm (freq : FreqTable) : ((codebookOf freq).map Prod.fst).Perm (freq.map Prod.fst) := by
  by_cases hne : freq = []
  · subst hne
    exact .nil
  · obtain ⟨t, -, hbuild, hleaves, -⟩ := buildTree_eq_some hne
    rw [codebookOf, hbuild, genCodes_symbols]
    exact hleaves.map Prod.fst

/-- A codebook made of a table has a code for every symbol the table lists. -/
theorem exists_hufEnc_codebookOf {freq : FreqTable} {s : List Byte} (h : ∀ b ∈ s, b ∈ freq.map Prod.fst) :
    ∃ bits, hufEnc (codebookOf freq) s = .ok bits :=
  exists_hufEnc_eq_ok fun b hb => (codebookOf_symbols_perm freq).mem_iff.2 (h b hb)

/-- Settles O26: the codes are paths of one tree with a leaf per symbol. -/
theorem generatedCodebookValid : Obligations.GeneratedCodebookValid := by
  unfold Obligations.GeneratedCodebookValid
  intro s _ cb
  have hvalid : Codebook.Valid cb := codebookOf_valid (freqOf_nodup s)
  have hfree : Codebook.PrefixFree cb := codebookOf_prefixFree _
  have hsyms : ∀ b, b ∈ cb.map Prod.fst ↔ b ∈ s := fun b =>
    (codebookOf_symbols_perm _).mem_iff.trans mem_freqOf_symbols
  obtain ⟨bits, hbits⟩ := exists_hufEnc_codebookOf fun b hb => mem_freqOf_symbols.2 hb
  exact ⟨hvalid, hfree, hsyms, bits, hbits, hufDec_of_hufEnc hvalid hfree hbits⟩

/-! ## Compression -/

/-- A computation and what follows it fail when either does. -/
theorem bind_error {α β : Type} {x : Except CmdError α} {k : α → Except CmdError β} {e : CmdError} :
    (x >>= k) = .error e ↔ x = .error e ∨ ∃ a, x = .ok a ∧ k a = .error e := by
  cases x <;> simp [bind, Except.bind]

/-- 44_container_codec.md R216: of the stages of a compression only the encoder raises UnknownSymbol. -/
theorem hufEnc_error_of_compressFn {c : Config} {data : List Byte} {useCtx : Bool} {b : Byte}
    (h : compressFn c data useCtx = .error (.unknownSymbol b)) :
    let tb := ser (lzEnc c data)
    let freq := if useCtx then (ctxFn c tb).1 else freqOf tb
    hufEnc (codebookOf freq) tb = .error (.unknownSymbol b) := by
  simp only [compressFn, checkTotal, bind_error, check_eq_error, check_eq_ok, reduceCtorEq, and_false, exists_const,
    false_or, or_false] at h
  obtain ⟨-, -, henc⟩ := h
  cases useCtx <;> exact henc

/-- 41_prefix_coder.md R139: a compression whose table lists every symbol of the token bytes meets no unknown one. -/
theorem compressFn_ne_unknownSymbol {c : Config} {data : List Byte} {useCtx : Bool} {b : Byte}
    (h : let tb := ser (lzEnc c data)
      ∀ x ∈ tb, x ∈ (if useCtx then (ctxFn c tb).1 else freqOf tb).map Prod.fst) :
    compressFn c data useCtx ≠ .error (.unknownSymbol b) := by
  intro herr
  have hfail := hufEnc_error_of_compressFn herr
  obtain ⟨bits, hbits⟩ := exists_hufEnc_codebookOf h
  cases hbits.symm.trans hfail

/-- Settles O35: FREQ lists every symbol of the token bytes, and ADAPTIVE lists what FREQ lists. -/
theorem compressNeverUnknownSymbol : Obligations.CompressNeverUnknownSymbol := by
  unfold Obligations.CompressNeverUnknownSymbol
  refine fun c data b => ⟨compressFn_ne_unknownSymbol fun x hx => mem_freqOf_symbols.2 hx, fun href =>
    compressFn_ne_unknownSymbol fun x hx => ?_⟩
  simpa only [if_pos, ctxFn, href, adaptive_symbols] using mem_freqOf_symbols.2 hx

end Sys2Proof.Machine
end

section
/-! PROOFS. The commands HUF_BUILD (O43), HUF_ENCODE (O44), HUF_DECODE (O45) and CB_LOAD (O46). -/

namespace Sys2Proof.Machine

/-! ## The errors of the bodies -/

section
variable {s : State} {e : CmdError}

theorem hufBuildBody_error {data : List Byte} : hufBuildBody s data = .error e ↔
    (2 ^ s.cfg.freqBits - 1 < FreqTable.total (freqOf data) ∧ .capacity .freq = e) ∨
    (FreqTable.total (freqOf data) ≤ 2 ^ s.cfg.freqBits - 1 ∧
      s.cfg.maxOut < (cbText (codebookOf (freqOf data))).length ∧ .capacity .outBuf = e) := by
  simp only [hufBuildBody, checkTotal, bind_error, check_eq_error, check_eq_ok, reduceCtorEq, and_false, exists_const,
    or_false, decide_eq_true_eq, decide_eq_false_iff_not, Nat.not_le]

theorem hufEncodeBody_error {data : List Byte} : hufEncodeBody s data = .error e ↔
    hufEnc s.cb data = .error e ∨
    ∃ bits, hufEnc s.cb data = .ok bits ∧ s.cfg.maxBits < bits.length ∧ .capacity .bits = e := by
  simp only [hufEncodeBody, bind_error, check_eq_error, reduceCtorEq, and_false, exists_const, or_false,
    decide_eq_false_iff_not, Nat.not_le]

theorem hufDecodeBody_error {bits : List Bool} : hufDecodeBody s bits = .error e ↔
    s.cfg.maxOut < (hufDec s.cb bits).length ∧ .capacity .outBuf = e := by
  simp only [hufDecodeBody, bind_error, check_eq_error, reduceCtorEq, and_false, exists_const, or_false,
    decide_eq_false_iff_not, Nat.not_le]

theorem cbLoadBody_error {text : List Byte} : cbLoadBody s text = .error e ↔ cbParse text = .error e := by
  simp only [cbLoadBody, bind_error, reduceCtorEq, and_false, exists_const, or_false]

end

/-! ## A command over BITS whose input is too long -/

theorem State.bitsOperand_tooLong {s : State} (h : s.cfg.maxBits < s.bitsLen.toNat) :
    s.bitsOperand = .tooLong (.capacity .bits) := by
  simp [State.bitsOperand, h]

/-- 60_exceptions.md R246: a command over BITS checks BITS_LEN before it reads a bit. -/
theorem State.failsWith_bitsTooLong {s : State} {i : Instr} (hi : readsIn i = false)
    (h : s.cfg.maxBits < s.bitsLen.toNat) : s.FailsWith i (destSet i) 5#8 4#32 := by
  obtain ⟨body, hexec⟩ := exec_of_readsBits hi s
  refine State.failsWith_of_exec (e := .capacity .bits) ?_
  rw [hexec, State.bitsOperand_tooLong h]
  rfl

/-! ## The outputs of the commands -/

/-- 00_scope.md R7: a length register holds every length up to a capacity. -/
theorem toNat_ofNat_of_le_capacity {n capacity : Nat} (h : n ≤ capacity) (hcap : capacity < 2 ^ 32) :
    (BitVec.ofNat 32 n).toNat = n :=
  (BitVec.toNat_ofNat _ _).trans (Nat.mod_eq_of_lt (h.trans_lt hcap))

theorem Config.maxBits_lt_of_legal {c : Config} (h : c.legal = true) : c.maxBits < 2 ^ 32 := by
  simp only [Config.legal, Bool.and_eq_true, decide_eq_true_eq] at h
  omega

/-- 10_state.md R32: CB_COUNT holds the number of entries of any codebook. -/
theorem Codebook.Valid.toNat_cbCount {cb : Codebook} (h : Codebook.Valid cb) :
    (BitVec.ofNat 9 cb.length).toNat = cb.length :=
  (State.codebookInv_of_valid (t := State.reset.putCodebook cb) h rfl).2

section
variable (s : State)

/-- What a command with outputs OUT and OUT_LEN ends with. -/
theorem State.ended_putOut {bytes : List Byte} (hlegal : s.cfg.legal = true) (hlen : bytes.length ≤ s.cfg.maxOut) :
    let t := (s.putOut bytes).endDone
    t.EndedDone ∧ Memory.HoldsExactly t.outBuf bytes ∧ t.outLen.toNat = bytes.length ∧
      State.KeepsAllBut [.out, .outLen] s t ∧ State.KeepsTrailerFlags s t := by
  refine ⟨State.endedDone_endDone _, Memory.ofList_holdsExactly bytes,
    toNat_ofNat_of_le_capacity hlen (Config.capacities_lt_of_legal hlegal).1, ?_, rfl, rfl⟩
  simp [State.KeepsAllBut, Memory.SameCells]

/-- What a command with outputs BITS and BITS_LEN ends with. -/
theorem State.ended_putBits {bits : List Bool} (hlegal : s.cfg.legal = true) (hlen : bits.length ≤ s.cfg.maxBits) :
    let t := (s.putBits bits).endDone
    t.EndedDone ∧ Memory.HoldsExactly t.bitsBuf bits ∧ t.bitsLen.toNat = bits.length ∧
      State.KeepsAllBut [.bits, .bitsLen] s t ∧ State.KeepsTrailerFlags s t := by
  refine ⟨State.endedDone_endDone _, Memory.ofList_holdsExactly bits,
    toNat_ofNat_of_le_capacity hlen (Config.maxBits_lt_of_legal hlegal), ?_, rfl, rfl⟩
  simp [State.KeepsAllBut, Memory.SameCells]

/-- What a command with outputs CB and CB_COUNT ends with. -/
theorem State.ended_putCodebook {cb : Codebook} (hvalid : Codebook.Valid cb) :
    let t := (s.putCodebook cb).endDone
    t.EndedDone ∧ t.cb = cb ∧ t.cbCount.toNat = cb.length ∧
      State.KeepsAllBut [.cb, .cbCount] s t ∧ State.KeepsTrailerFlags s t := by
  refine ⟨State.endedDone_endDone _, rfl, hvalid.toNat_cbCount, ?_, rfl, rfl⟩
  simp [State.KeepsAllBut, Memory.SameCells]

/-- What a command with outputs CB, CB_COUNT, OUT and OUT_LEN ends with. -/
theorem State.ended_putCodebook_putOut {cb : Codebook} {bytes : List Byte} (hvalid : Codebook.Valid cb)
    (hlegal : s.cfg.legal = true) (hlen : bytes.length ≤ s.cfg.maxOut) :
    let t := ((s.putCodebook cb).putOut bytes).endDone
    t.EndedDone ∧ t.cb = cb ∧ t.cbCount.toNat = cb.length ∧ Memory.HoldsExactly t.outBuf bytes ∧
      t.outLen.toNat = bytes.length ∧ State.KeepsAllBut [.cb, .cbCount, .out, .outLen] s t ∧
      State.KeepsTrailerFlags s t := by
  refine ⟨State.endedDone_endDone _, rfl, hvalid.toNat_cbCount, Memory.ofList_holdsExactly bytes,
    toNat_ofNat_of_le_capacity hlen (Config.capacities_lt_of_legal hlegal).1, ?_, rfl, rfl⟩
  simp [State.KeepsAllBut, Memory.SameCells]

end

/-! ## The commands -/

/-- Settles O43: the two checks of the body in order, then the outputs. -/
theorem hufBuildCommand : Obligations.HufBuildCommand := by
  unfold Obligations.HufBuildCommand
  refine ⟨by decide, fun s hlegal => ⟨State.failsWith_inTooLong (i := .hufBuild) rfl, fun data hin hfits => ?_⟩⟩
  have hop := State.inOperand_eq hin hfits
  refine ⟨fun hmany => ?_, fun htotal hlong => ?_, fun htotal hout => ?_⟩
  · exact State.failsWith_of_exec (i := .hufBuild) (runCommand_error hop (hufBuildBody_error.2 (.inl ⟨hmany, rfl⟩)))
  · exact State.failsWith_of_exec (i := .hufBuild)
      (runCommand_error hop (hufBuildBody_error.2 (.inr ⟨htotal, hlong, rfl⟩)))
  · exact ⟨_, runCommand_done hop (hufBuildBody_ok.2 ⟨htotal, hout, rfl⟩),
      s.ended_putCodebook_putOut (codebookOf_valid (freqOf_nodup data)) hlegal hout⟩

/-- Settles O44: the encoder's error, then the check of the body, then the outputs. -/
theorem hufEncodeCommand : Obligations.HufEncodeCommand := by
  unfold Obligations.HufEncodeCommand
  refine ⟨by decide, fun s hlegal => ⟨State.failsWith_inTooLong (i := .hufEncode) rfl, fun data hin hfits => ?_⟩⟩
  have hop := State.inOperand_eq hin hfits
  refine ⟨fun b hunknown => ?_, fun bits henc => ⟨fun hlong => ?_, fun hbits => ?_⟩⟩
  · rw [BitVec.ofNat_toNat]
    exact State.failsWith_of_exec (i := .hufEncode) (runCommand_error hop (hufEncodeBody_error.2 (.inl hunknown)))
  · exact State.failsWith_of_exec (i := .hufEncode)
      (runCommand_error hop (hufEncodeBody_error.2 (.inr ⟨bits, henc, hlong, rfl⟩)))
  · exact ⟨_, runCommand_done hop (hufEncodeBody_ok.2 ⟨bits, henc, hbits, rfl⟩), s.ended_putBits hlegal hbits⟩

/-- Settles O45: the length check of BITS, then the one check of the body, then the outputs. -/
theorem hufDecodeCommand : Obligations.HufDecodeCommand := by
  unfold Obligations.HufDecodeCommand
  refine ⟨by decide, fun s hlegal => ⟨State.failsWith_bitsTooLong (i := .hufDecode) rfl, fun bits hin hfits => ?_⟩⟩
  have hop := State.bitsOperand_eq hin hfits
  refine ⟨fun hlong => ?_, fun hout => ?_⟩
  · exact State.failsWith_of_exec (i := .hufDecode) (runCommand_error hop (hufDecodeBody_error.2 ⟨hlong, rfl⟩))
  · exact ⟨_, runCommand_done hop (hufDecodeBody_ok.2 ⟨hout, rfl⟩), s.ended_putOut hlegal hout⟩

/-- Settles O46: the parser's error, else its codebook, which has at most 256 entries. -/
theorem cbLoadCommand : Obligations.CbLoadCommand := by
  unfold Obligations.CbLoadCommand
  refine ⟨by decide, fun s _ => ⟨State.failsWith_inTooLong (i := .cbLoad) rfl, fun text hin hfits => ?_⟩⟩
  have hop := State.inOperand_eq hin hfits
  refine ⟨fun e hparse => ?_, fun cb hparse => ?_⟩
  · obtain ⟨hcode, hinfo⟩ := (codebookTextAccepted.1 text).2 e hparse
    exact ⟨hcode ▸ State.failsWith_of_exec (i := .cbLoad) (runCommand_error hop (cbLoadBody_error.2 hparse)), hinfo⟩
  · exact ⟨_, runCommand_done hop (cbLoadBody_ok.2 ⟨cb, hparse, rfl⟩), s.ended_putCodebook (cbParse_valid hparse)⟩

end Sys2Proof.Machine
end

section
/-! PROOFS. The Bit Packer: UNPACK and its checks (O32), the round trip (O33), and the commands BIT_PACK (O47) and
BIT_UNPACK (O48). -/

namespace Sys2Proof.Machine

/-! ## Unpacking -/

@[simp] theorem bitsOfByte_length (b : Byte) : (bitsOfByte b).length = 8 := rfl

theorem flatMap_bitsOfByte_length (bytes : List Byte) : (bytes.flatMap bitsOfByte).length = 8 * bytes.length := by
  simp [List.length_flatMap, Nat.mul_comm]

/-- 42_bit_packer.md R172: the expansion of a byte sequence has bit `j` from byte `j / 8`. -/
theorem flatMap_bitsOfByte_getElem? (bytes : List Byte) (j : Nat) :
    (bytes.flatMap bitsOfByte)[j]? = (bytes[j / 8]?).map (fun b => b.getLsbD (7 - j % 8)) := by
  induction bytes generalizing j with
  | nil => rfl
  | cons b bytes ih =>
    rw [List.flatMap_cons]
    rcases Nat.lt_or_ge j 8 with hlt | hge
    · rw [List.getElem?_append_left hlt, bitsOfByte_getElem? b hlt, Nat.div_eq_of_lt hlt, Nat.mod_eq_of_lt hlt]
      rfl
    · obtain ⟨k, rfl⟩ := Nat.exists_eq_add_of_le' hge
      rw [List.getElem?_append_right hge, bitsOfByte_length, Nat.add_sub_cancel, ih, Nat.add_div_right k (by decide),
        Nat.add_mod_right, List.getElem?_cons_succ]

theorem unpackBits_length (bytes : List Byte) (pad : Nat) : (unpackBits bytes pad).length = 8 * bytes.length - pad := by
  rw [unpackBits, List.length_take, flatMap_bitsOfByte_length, Nat.min_eq_left (Nat.sub_le ..)]

theorem unpackBits_getElem? (bytes : List Byte) (pad j : Nat) :
    (unpackBits bytes pad)[j]? = if j < 8 * bytes.length - pad then
      (bytes[j / 8]?).map (fun b => b.getLsbD (7 - j % 8)) else none := by
  rw [unpackBits, List.getElem?_take, flatMap_bitsOfByte_length, flatMap_bitsOfByte_getElem?]

/-- 42_bit_packer.md R173: UNPACK succeeds when both checks pass. -/
theorem unpack_eq_ok {bytes : List Byte} {pad : Nat} {bits : List Bool} :
    unpack bytes pad = .ok bits ↔ pad ≤ 7 ∧ (bytes ≠ [] ∨ pad = 0) ∧ unpackBits bytes pad = bits := by
  simp only [unpack, check_bind_ok, decide_eq_true_eq, Bool.or_eq_true, Bool.not_eq_true', List.isEmpty_eq_false_iff,
    beq_iff_eq, Except.ok.injEq]

/-- 42_bit_packer.md R173: UNPACK fails at the first check that does not pass. -/
theorem unpack_eq_error {bytes : List Byte} {pad : Nat} {e : CmdError} :
    unpack bytes pad = .error e ↔ (7 < pad ∧ .corruptContainer .padRange = e) ∨
      (pad ≤ 7 ∧ (bytes = [] ∧ 0 < pad) ∧ .corruptContainer .padWithoutPayload = e) := by
  simp only [unpack, bind_error, check_eq_error, check_eq_ok, reduceCtorEq, or_false, exists_const, and_false,
    decide_eq_true_eq, decide_eq_false_iff_not, Nat.not_le, Bool.or_eq_false_iff, Bool.not_eq_false', List.isEmpty_iff,
    beq_eq_false_iff_ne, Nat.pos_iff_ne_zero]

/-- Settles O32: the two checks in order, then the expansion without its last `pad` bits. -/
theorem unpackChecksAndBits : Obligations.UnpackChecksAndBits := by
  unfold Obligations.UnpackChecksAndBits
  refine fun bytes pad => ⟨fun hpad => ?_, fun hpad hempty hpos => ?_, fun hpad hpayload => ?_⟩
  · exact unpack_eq_error.2 (.inl ⟨hpad, rfl⟩)
  · exact unpack_eq_error.2 (.inr ⟨hpad, ⟨hempty, hpos⟩, rfl⟩)
  · have hlen := unpackBits_length bytes pad
    refine ⟨_, unpack_eq_ok.2 ⟨hpad, hpayload, rfl⟩, hlen, fun j hj => ?_⟩
    rw [unpackBits_getElem?, if_pos (hlen ▸ hj)]

/-! ## The round trip -/

/-- 42_bit_packer.md R170, R172: whole groups, packed and expanded, are the bits they were. -/
theorem flatMap_bitsOfByte_packGroups {bits : List Bool} (h : 8 ∣ bits.length) :
    (packGroups bits).flatMap bitsOfByte = bits := by
  induction bits using packGroups.induct with
  | case1 b0 b1 b2 b3 b4 b5 b6 b7 rest ih =>
    have hrest : 8 ∣ rest.length := by simp only [List.length_cons] at h; omega
    rw [packGroups, List.flatMap_cons, bitsOfByte_byteOfBits, ih hrest]
    rfl
  | case2 bits hshort =>
    have hnil : bits = [] := List.length_eq_zero_iff.1 (Nat.eq_zero_of_dvd_of_lt h (length_lt_of_no_group hshort))
    rw [hnil]
    rfl

theorem unpackBits_pack (bits : List Bool) : unpackBits (pack bits).1 (pack bits).2 = bits := by
  have hgroups : 8 ∣ (bits ++ List.replicate (padOf bits.length) false).length := by
    rw [List.length_append, List.length_replicate, length_add_padOf]
    exact Nat.dvd_mul_right ..
  simp only [unpackBits, pack, flatMap_bitsOfByte_packGroups hgroups, List.length_append, List.length_replicate,
    Nat.add_sub_cancel, List.take_left]

theorem pack_pad_le (bits : List Bool) : (pack bits).2 ≤ 7 := (packedBitOrder bits).2.1

/-- 42_bit_packer.md R171: PACK gives no bytes only for no bits, and then no pad. -/
theorem pack_ne_nil_or_pad_eq_zero (bits : List Bool) : (pack bits).1 ≠ [] ∨ (pack bits).2 = 0 := by
  refine or_iff_not_imp_left.2 fun hnil => ?_
  have hlen := pack_length bits
  rw [not_not.1 hnil, List.length_nil] at hlen
  have hbits : bits = [] := List.length_eq_zero_iff.1 (by omega)
  rw [hbits]
  rfl

/-- Settles O33: PACK's output passes both checks, and its groups expand to the bits and the pad. -/
theorem bitPackRoundTrip : Obligations.BitPackRoundTrip := fun bits =>
  unpack_eq_ok.2 ⟨pack_pad_le bits, pack_ne_nil_or_pad_eq_zero bits, unpackBits_pack bits⟩

/-! ## BIT_PACK -/

theorem bitPackBody_error {s : State} {bits : List Bool} {e : CmdError} : bitPackBody s bits = .error e ↔
    s.cfg.maxOut < (pack bits).1.length ∧ .capacity .outBuf = e := by
  simp only [bitPackBody, bind_error, check_eq_error, reduceCtorEq, and_false, exists_const, or_false,
    decide_eq_false_iff_not, Nat.not_le]

/-- What a command with outputs OUT, OUT_LEN and PAD ends with. -/
theorem State.ended_putOut_putPad (s : State) {bytes : List Byte} {pad : Nat} (hlegal : s.cfg.legal = true)
    (hlen : bytes.length ≤ s.cfg.maxOut) (hpad : pad ≤ 7) :
    let t := ((s.putOut bytes).putPad pad).endDone
    t.EndedDone ∧ Memory.HoldsExactly t.outBuf bytes ∧ t.outLen.toNat = bytes.length ∧ t.pad.toNat = pad ∧
      State.KeepsAllBut [.out, .outLen, .pad] s t ∧ State.KeepsTrailerFlags s t := by
  refine ⟨State.endedDone_endDone _, Memory.ofList_holdsExactly bytes,
    toNat_ofNat_of_le_capacity hlen (Config.capacities_lt_of_legal hlegal).1, ?_, ?_, rfl, rfl⟩
  · exact (BitVec.toNat_ofNat _ _).trans (Nat.mod_eq_of_lt (by omega))
  · simp [State.KeepsAllBut, Memory.SameCells]

/-- Settles O47: the length check of BITS, then the one check of the body, then the outputs. -/
theorem bitPackCommand : Obligations.BitPackCommand := by
  unfold Obligations.BitPackCommand
  refine ⟨by decide, fun s hlegal => ⟨State.failsWith_bitsTooLong (i := .bitPack) rfl, fun bits hin hfits => ?_⟩⟩
  have hop := State.bitsOperand_eq hin hfits
  refine ⟨fun hlong => ?_, fun hout => ?_⟩
  · exact State.failsWith_of_exec (i := .bitPack) (runCommand_error hop (bitPackBody_error.2 ⟨hlong, rfl⟩))
  · exact ⟨_, runCommand_done hop (bitPackBody_ok.2 ⟨hout, rfl⟩), s.ended_putOut_putPad hlegal hout (pack_pad_le bits)⟩

/-! ## BIT_UNPACK -/

theorem bitUnpackBody_error {s : State} {bytes : List Byte} {e : CmdError} : bitUnpackBody s bytes = .error e ↔
    unpack bytes s.pad.toNat = .error e ∨
    ∃ bits, unpack bytes s.pad.toNat = .ok bits ∧ s.cfg.maxBits < bits.length ∧ .capacity .bits = e := by
  simp only [bitUnpackBody, bind_error, check_eq_error, reduceCtorEq, and_false, exists_const, or_false,
    decide_eq_false_iff_not, Nat.not_le]

/-- Settles O48: the errors of UNPACK, then the check of the body, then the outputs. -/
theorem bitUnpackCommand : Obligations.BitUnpackCommand := by
  unfold Obligations.BitUnpackCommand
  refine ⟨by decide, fun s hlegal => ⟨State.failsWith_inTooLong (i := .bitUnpack) rfl, fun bytes hin hfits => ?_⟩⟩
  have fails {e : CmdError} (h : bitUnpackBody s bytes = .error e) : s.FailsWith .bitUnpack [.bits, .bitsLen] e.code e.info :=
    State.failsWith_of_exec (i := .bitUnpack) (runCommand_error (State.inOperand_eq hin hfits) h)
  refine ⟨fun hpad => ?_, fun hpad hempty hpos => ?_, fun hpad hpayload => ?_⟩
  · exact fails (bitUnpackBody_error.2 (.inl (unpack_eq_error.2 (.inl ⟨hpad, rfl⟩))))
  · exact fails (bitUnpackBody_error.2 (.inl (unpack_eq_error.2 (.inr ⟨hpad, ⟨hempty, hpos⟩, rfl⟩))))
  · have hunpack := unpack_eq_ok.2 ⟨hpad, hpayload, rfl⟩
    rw [← unpackBits_length]
    refine ⟨fun hlong => ?_, fun hbits => ?_⟩
    · exact fails (bitUnpackBody_error.2 (.inr ⟨_, hunpack, hlong, rfl⟩))
    · obtain ⟨hdone, hholds, hlen, hkeeps, hflags⟩ := s.ended_putBits hlegal hbits
      refine ⟨_, runCommand_done (State.inOperand_eq hin hfits) (bitUnpackBody_ok.2 ⟨_, hunpack, hbits, rfl⟩), hdone, hlen,
        fun j => ?_, hkeeps, hflags⟩
      rw [hholds, unpackBits_getElem?, unpackBits_length]

end Sys2Proof.Machine
end

section
/-! PROOFS. The reference collaborator at its interface (O34): the windows of a stream by position, training, and the adaptive
table. -/

namespace Sys2Proof.Machine

/-! ## The windows of a stream -/

/-- 43_context_interface.md R192: a window stands at every position that has k symbols and one more from it on. -/
theorem ctxWindows_eq_filterMap (k : Nat) (s : List Byte) :
    ctxWindows k s = (List.range (s.length - k)).filterMap fun i => (s[i + k]?).map (Prod.mk ((s.drop i).take k)) := by
  induction s with
  | nil => simp [ctxWindows]
  | cons b bs ih =>
    by_cases hk : k < (b :: bs).length
    · have hlen : (b :: bs).length - k = bs.length - k + 1 := Nat.succ_sub (Nat.le_of_lt_succ hk)
      rw [hlen, List.range_succ_eq_map, List.filterMap_cons, List.filterMap_map]
      simp [ctxWindows, ih, List.drop_eq_getElem_cons hk, List.getElem?_eq_getElem hk, Nat.add_right_comm]
    · rw [not_lt] at hk
      rw [Nat.sub_eq_zero_of_le hk]
      simp [ctxWindows, List.drop_of_length_le hk]

/-! ## Training -/

/-- An absent counter counts as the empty one. -/
theorem CtxTable.observed_eq_count (t : CtxTable) (ctx : List Byte) (x : Byte) :
    CtxTable.observed t ctx x = FreqTable.count ((CtxTable.counter t ctx).getD []) x := by
  unfold CtxTable.observed
  cases CtxTable.counter t ctx <;> rfl

theorem CtxTable.counter_bump (t : CtxTable) (ctx ctx' : List Byte) (nxt : Byte) :
    CtxTable.counter (CtxTable.bump t ctx nxt) ctx' =
      if ctx = ctx' then some (FreqTable.bump ((CtxTable.counter t ctx).getD []) nxt) else CtxTable.counter t ctx' := by
  induction t with
  | nil => simp [CtxTable.bump, CtxTable.counter, FreqTable.bump]
  | cons e t ih =>
    by_cases he : e.1 = ctx
    · subst he
      by_cases hctx : e.1 = ctx' <;> simp [CtxTable.bump, CtxTable.counter, hctx]
    · by_cases hctx : e.1 = ctx'
      · subst hctx
        simp [CtxTable.bump, CtxTable.counter, he, Ne.symm he]
      · simp [CtxTable.bump, CtxTable.counter, he, hctx, ih]

theorem CtxTable.observed_bump (t : CtxTable) (ctx ctx' : List Byte) (nxt x : Byte) :
    CtxTable.observed (CtxTable.bump t ctx nxt) ctx' x =
      CtxTable.observed t ctx' x + if ctx = ctx' ∧ nxt = x then 1 else 0 := by
  rw [CtxTable.observed_eq_count, CtxTable.counter_bump]
  by_cases hctx : ctx = ctx'
  · simp [hctx, CtxTable.observed_eq_count, FreqTable.count_bump]
  · simp [hctx, CtxTable.observed_eq_count]

theorem CtxTable.observed_foldl_bump (ws : List (List Byte × Byte)) (t : CtxTable) (ctx : List Byte) (x : Byte) :
    CtxTable.observed (ws.foldl (fun t w => CtxTable.bump t w.1 w.2) t) ctx x =
      CtxTable.observed t ctx x + ws.count (ctx, x) := by
  induction ws generalizing t with
  | nil => rfl
  | cons w ws ih =>
    simp only [List.foldl_cons, ih, CtxTable.observed_bump, List.count_cons, beq_iff_eq, Prod.ext_iff]
    rw [Nat.add_assoc, Nat.add_comm (List.count _ _)]

/-- 43_context_interface.md R192: training counts windows. -/
theorem observed_train (s : List Byte) (k : Nat) (ctx : List Byte) (x : Byte) :
    CtxTable.observed (train s k) ctx x = (ctxWindows k s).count (ctx, x) :=
  (CtxTable.observed_foldl_bump _ [] ctx x).trans (Nat.zero_add _)

/-! ## The adaptive table -/

/-- A symbol the table does not list counts 0, and keeps that count when `g` keeps 0. -/
theorem FreqTable.count_update (t : FreqTable) (b x : Byte) {g : Nat → Nat} (hg : g 0 = 0) :
    FreqTable.count (FreqTable.update t b g) x = if b = x then g (FreqTable.count t x) else FreqTable.count t x := by
  induction t with
  | nil => simp [FreqTable.update, FreqTable.count, hg]
  | cons e t ih =>
    by_cases he : e.1 = b
    · by_cases hx : b = x <;> simp [FreqTable.update, FreqTable.count, he, hx]
    · by_cases hx : e.1 = x
      · subst hx
        simp [FreqTable.update, FreqTable.count, he, Ne.symm he]
      · simp [FreqTable.update, FreqTable.count, he, hx, ih]

theorem boost_zero (c n : Nat) : boost c n 0 = 0 := by
  simp [boost]

/-- What one window of ADAPTIVE does to the count `f` of the symbol `x` (43_context_interface.md R194). -/
def boostAt (t : CtxTable) (x : Byte) (f : Nat) (w : List Byte × Byte) : Nat :=
  if w.2 = x ∧ 0 < CtxTable.observed t w.1 x then
    boost (CtxTable.observed t w.1 x) (FreqTable.total ((CtxTable.counter t w.1).getD [])) f
  else f

theorem count_adaptStep (t : CtxTable) (f : FreqTable) (w : List Byte × Byte) (x : Byte) :
    FreqTable.count (adaptStep t f w) x = boostAt t x (FreqTable.count f x) w := by
  unfold adaptStep boostAt CtxTable.observed
  cases CtxTable.counter t w.1 with
  | none => simp
  | some counter =>
    by_cases hx : w.2 = x
    · subst hx
      by_cases hseen : FreqTable.count counter w.2 = 0
      · simp [hseen]
      · simp [hseen, FreqTable.count_update, boost_zero, Nat.pos_iff_ne_zero]
    · by_cases hseen : FreqTable.count counter w.2 = 0
      · simp [hseen, hx]
      · simp [hseen, hx, FreqTable.count_update, boost_zero]

theorem count_adaptive (s : List Byte) (t : CtxTable) (k : Nat) (x : Byte) :
    FreqTable.count (adaptive s t k) x = (ctxWindows k s).foldl (boostAt t x) (s.count x) := by
  rw [← count_freqOf s x]
  exact (List.foldl_hom (FreqTable.count · x) fun f w => (count_adaptStep t f w x).symm).symm

/-- Settles O34: both parts on positions are the ones on windows, read by `ctxWindows_eq_filterMap`. -/
theorem contextTrainingAndTable : Obligations.ContextTrainingAndTable := by
  unfold Obligations.ContextTrainingAndTable
  refine ⟨fun s k hshort => ?_, fun s k ctx x _ => ?_, fun s t k => ⟨adaptive_symbols s t k, fun x => ?_⟩, ctxFn_nodup⟩
  · simp [train, ctxWindows_eq_filterMap, Nat.sub_eq_zero_of_le hshort]
  · rw [observed_train, ctxWindows_eq_filterMap, List.count, List.countP_filterMap]
    refine List.countP_congr fun i _ => ?_
    cases s[i + k]? <;> simp
  · rw [count_adaptive, ctxWindows_eq_filterMap, List.foldl_filterMap]
    refine List.foldl_ext _ _ _ fun f i _ => ?_
    cases s[i + k]? with
    | none => simp
    | some b => simp [boostAt, boost]

end Sys2Proof.Machine
end

section
/-! PROOFS. The Container Codec: the fields of a blob (O36), the header (O37), and the trailer at the last marker (O38). -/

namespace Sys2Proof.Machine

/-! ## Byte orders -/

/-- 00_scope.md R16: be32 reads the number that BE32 wrote, whatever follows. -/
theorem be32_be32Bytes_append {n : Nat} (h : n < 2 ^ 32) (rest : List Byte) : be32 (be32Bytes n ++ rest) = n := by
  simp only [be32, be32Bytes, List.cons_append, List.getD_cons_zero, List.getD_cons_succ, BitVec.toNat_ofNat]
  omega

/-- 00_scope.md R16: le32 reads the number that LE32 wrote, whatever follows. -/
theorem le32_le32Bytes_append {n : Nat} (h : n < 2 ^ 32) (rest : List Byte) : le32 (le32Bytes n ++ rest) = n := by
  simp only [le32, le32Bytes, List.cons_append, List.getD_cons_zero, List.getD_cons_succ, BitVec.toNat_ofNat]
  omega

/-- The number in the first four bytes does not depend on what follows them. -/
theorem be32_append {b : List Byte} (h : 4 ≤ b.length) (rest : List Byte) : be32 (b ++ rest) = be32 b := by
  unfold be32
  rw [List.getD_append _ _ _ _ (by omega), List.getD_append _ _ _ _ (by omega), List.getD_append _ _ _ _ (by omega),
    List.getD_append _ _ _ _ (by omega)]

/-! ## The blob -/

@[simp] theorem be32Bytes_length (n : Nat) : (be32Bytes n).length = 4 := rfl

@[simp] theorem le32Bytes_length (n : Nat) : (le32Bytes n).length = 4 := rfl

@[simp] theorem marker_length : marker.length = 8 := rfl

/-- 44_container_codec.md R211: the length of a blob, with its trailer if it has one. -/
theorem assemble_length (text : List Byte) (pad : Nat) (packed : List Byte) (useCtx : Bool) (model : List Byte) :
    (assemble text pad packed useCtx model).length =
      5 + text.length + packed.length + if useCtx then 12 + model.length else 0 := by
  cases useCtx <;>
    simp only [assemble, List.length_append, List.length_singleton, List.length_nil, be32Bytes_length, le32Bytes_length,
      marker_length, Bool.false_eq_true, if_true, if_false] <;>
    omega

/-- 44_container_codec.md R211: the empty input has no tokens, no codes and no packed bytes. -/
theorem compressFn_nil {c : Config} (h : 5 ≤ c.maxOut) :
    compressFn c [] false = .ok ⟨assemble [] 0 [] false [], [], [], [], 0, []⟩ :=
  compressFn_ok.2 ⟨[], Nat.zero_le _, Nat.zero_le _, rfl, Nat.zero_le _, fun hctx => absurd hctx (by decide), h, rfl⟩

/-- Settles O36: the fields of ASSEMBLE with their lengths, both byte orders read back, and the empty input. -/
theorem blobLayout : Obligations.BlobLayout := by
  unfold Obligations.BlobLayout
  refine ⟨fun text pad packed model => ?_, fun text pad packed model => ?_, fun n hn => ⟨?_, ?_⟩, fun c hout => ?_⟩
  · exact ⟨List.append_nil _, assemble_length text pad packed false model⟩
  · refine ⟨?_, (assemble_length text pad packed true model).trans (Nat.add_assoc ..).symm⟩
    simp [assemble, marker]
  · simpa using be32_be32Bytes_append hn []
  · simpa using le32_le32Bytes_append hn []
  · exact ⟨_, compressFn_nil hout, rfl⟩

/-! ## The header -/

section
variable {b : List Byte}

/-- 44_container_codec.md R212: the header when all four checks pass. -/
theorem parseHeader_ok {h : Header} : parseHeader b = .ok h ↔
    4 + be32 b + 1 ≤ b.length ∧ (b.getD (4 + be32 b) 0#8).toNat ≤ 7 ∧
    ∃ cb, cbParse ((b.drop 4).take (be32 b)) = .ok cb ∧
      ⟨(b.getD (4 + be32 b) 0#8).toNat, cb, b.drop (4 + be32 b + 1)⟩ = h := by
  simp only [parseHeader, bind_ok, check_eq_ok, exists_const, decide_eq_true_eq, Except.ok.injEq]
  exact and_iff_right_of_imp fun hchecks => by omega

/-- 44_container_codec.md R212: the first check that does not pass. -/
theorem parseHeader_error {e : CmdError} : parseHeader b = .error e ↔
    (b.length < 4 ∧ .corruptContainer .shortBlob = e) ∨ 4 ≤ b.length ∧
    ((b.length < 4 + be32 b + 1 ∧ .corruptContainer .textTooLong = e) ∨ 4 + be32 b + 1 ≤ b.length ∧
    ((7 < (b.getD (4 + be32 b) 0#8).toNat ∧ .corruptContainer .padRange = e) ∨ (b.getD (4 + be32 b) 0#8).toNat ≤ 7 ∧
    cbParse ((b.drop 4).take (be32 b)) = .error e)) := by
  simp only [parseHeader, bind_error, check_eq_error, check_eq_ok, reduceCtorEq, and_false, exists_const, or_false,
    decide_eq_true_eq, decide_eq_false_iff_not, Nat.not_le]

/-- 44_container_codec.md R212: bytes after a front that holds the header are payload and nothing else. -/
theorem parseHeader_append {h : Header} (hlen : 5 + be32 b ≤ b.length) (rest : List Byte) :
    parseHeader (b ++ rest) = .ok h ↔ ∃ h', parseHeader b = .ok h' ∧ ⟨h'.pad, h'.cb, h'.payload ++ rest⟩ = h := by
  have hbe := be32_append (by omega : 4 ≤ b.length) rest
  have htext : ((b ++ rest).drop 4).take (be32 b) = (b.drop 4).take (be32 b) := by
    rw [List.drop_append_of_le_length (by omega), List.take_append_of_le_length (by rw [List.length_drop]; omega)]
  rw [parseHeader_ok, hbe, htext, List.getD_append _ _ _ _ (by omega), List.drop_append_of_le_length (by omega),
    List.length_append]
  constructor
  · rintro ⟨-, hpad, cb, hcb, rfl⟩
    exact ⟨_, parseHeader_ok.2 ⟨by omega, hpad, cb, hcb, rfl⟩, rfl⟩
  · rintro ⟨h', hp, rfl⟩
    obtain ⟨-, hpad, cb, hcb, rfl⟩ := parseHeader_ok.1 hp
    exact ⟨by omega, hpad, cb, hcb, rfl⟩

theorem parseHeader_pad_le {h : Header} (hp : parseHeader b = .ok h) : h.pad ≤ 7 := by
  obtain ⟨-, hpad, cb, -, rfl⟩ := parseHeader_ok.1 hp
  exact hpad

end

/-- Settles O37: the four checks in order, else the header. -/
theorem headerChecksInOrder : Obligations.HeaderChecksInOrder := by
  unfold Obligations.HeaderChecksInOrder
  refine fun b => ⟨fun hshort => ?_, fun hlen hshort => ?_, fun hlen hpad => ?_, fun hlen hpad e he => ?_,
    fun hlen hpad cb hcb => ?_⟩
  · exact parseHeader_error.2 (.inl ⟨hshort, rfl⟩)
  · exact parseHeader_error.2 (.inr ⟨hlen, .inl ⟨hshort, rfl⟩⟩)
  · exact parseHeader_error.2 (.inr ⟨by omega, .inr ⟨hlen, .inl ⟨hpad, rfl⟩⟩⟩)
  · exact parseHeader_error.2 (.inr ⟨by omega, .inr ⟨hlen, .inr ⟨hpad, he⟩⟩⟩)
  · exact parseHeader_ok.2 ⟨hlen, hpad, cb, hcb, rfl⟩

/-! ## The last marker -/

section
variable {b : Byte} {bs p : List Byte} {q : Nat}

theorem lastMarker_cons_of_some (h : lastMarker bs = some q) : lastMarker (b :: bs) = some (q + 1) := by
  rw [lastMarker, h]

theorem lastMarker_cons_of_none (h : lastMarker bs = none) :
    lastMarker (b :: bs) = if marker.isPrefixOf (b :: bs) then some 0 else none := by
  rw [lastMarker, h]

theorem lastMarker_eq_none : lastMarker p = none ↔ ∀ q, ¬ marker <+: p.drop q := by
  induction p with
  | nil => simp [lastMarker, marker]
  | cons b bs ih =>
    rw [← Nat.and_forall_add_one]
    simp only [List.drop_zero, List.drop_succ_cons, ← ih]
    cases h : lastMarker bs with
    | some q => simp [lastMarker_cons_of_some h]
    | none => simp [lastMarker_cons_of_none h]

/-- 44_container_codec.md R213: the greatest offset at which the marker stands. -/
theorem lastMarker_eq_some (hq : marker <+: p.drop q) (hlast : ∀ q', q < q' → ¬ marker <+: p.drop q') :
    lastMarker p = some q := by
  induction p generalizing q with
  | nil => simp [marker] at hq
  | cons b bs ih =>
    cases q with
    | zero =>
      have hnone : lastMarker bs = none := lastMarker_eq_none.2 fun q' => hlast (q' + 1) (Nat.succ_pos q')
      rw [lastMarker_cons_of_none hnone]
      exact if_pos (List.isPrefixOf_iff_prefix.2 hq)
    | succ q => exact lastMarker_cons_of_some (ih hq fun q' hlt => hlast (q' + 1) (Nat.succ_lt_succ hlt))

end

theorem findTrailer_of_no_marker {p : List Byte} (h : ∀ q, ¬ marker <+: p.drop q) : findTrailer p = (p, none) := by
  rw [findTrailer, lastMarker_eq_none.2 h]

theorem findTrailer_of_last_marker {p : List Byte} {q : Nat} (hq : marker <+: p.drop q)
    (hlast : ∀ q', q < q' → ¬ marker <+: p.drop q') : findTrailer p = (p.take q, some (p.drop (q + 8))) := by
  rw [findTrailer, lastMarker_eq_some hq hlast]

/-- Settles O38: the scan from the back stops at the greatest offset at which the marker stands. -/
theorem trailerIsLastMarker : Obligations.TrailerIsLastMarker := by
  unfold Obligations.TrailerIsLastMarker
  exact fun p => ⟨findTrailer_of_no_marker, fun q => findTrailer_of_last_marker⟩

/-- A trailer's own marker is found when none stands after it. -/
theorem findTrailer_append_marker {packed tail : List Byte}
    (h : ∀ q, packed.length < q → ¬ marker <+: (packed ++ (marker ++ tail)).drop q) :
    findTrailer (packed ++ (marker ++ tail)) = (packed, some tail) := by
  have hmarker : marker <+: (packed ++ (marker ++ tail)).drop packed.length := by
    rw [List.drop_left]
    exact List.prefix_append ..
  rw [findTrailer_of_last_marker hmarker h, List.take_left, ← List.drop_drop, List.drop_left]
  rfl

end Sys2Proof.Machine
end

section
/-! PROOFS. The pipelines of the Container Codec: their stages in order (O51, O52), what follows the last marker (O39), and the round
trip (O40). -/

namespace Sys2Proof.Machine

/-! ## Compression -/

/-- 44_container_codec.md R216: the first stage that fails. -/
theorem compressFn_error {c : Config} {data : List Byte} {useCtx : Bool} {e : CmdError} :
    let tb := ser (lzEnc c data)
    let freq := if useCtx then (ctxFn c tb).1 else freqOf tb
    let model := if useCtx then (ctxFn c tb).2 else []
    let cb := codebookOf freq
    compressFn c data useCtx = .error e ↔
      (c.maxTok < tb.length ∧ .capacity .tok = e) ∨ tb.length ≤ c.maxTok ∧
      ((2 ^ c.freqBits - 1 < FreqTable.total freq ∧ .capacity .freq = e) ∨ FreqTable.total freq ≤ 2 ^ c.freqBits - 1 ∧
      (hufEnc cb tb = .error e ∨ ∃ bits, hufEnc cb tb = .ok bits ∧
      ((c.maxBits < bits.length ∧ .capacity .bits = e) ∨ bits.length ≤ c.maxBits ∧
      (((useCtx = true ∧ c.maxModel < model.length) ∧ .capacity .model = e) ∨
        (useCtx = true → model.length ≤ c.maxModel) ∧
        c.maxOut < (assemble (cbText cb) (pack bits).2 (pack bits).1 useCtx model).length ∧ .capacity .outBuf = e)))) := by
  simp only [compressFn, checkTotal, bind_error, check_eq_error, check_eq_ok, reduceCtorEq, and_false, exists_const,
    or_false, decide_eq_true_eq, decide_eq_false_iff_not, Nat.not_le]
  cases useCtx <;> simp

/-- Settles O51: the first stage that fails decides (`compressFn_error`), and a pipeline that passes them all gives `compressFn_ok`. -/
theorem compressStagesInOrder : Obligations.CompressStagesInOrder := by
  unfold Obligations.CompressStagesInOrder
  intro c data useCtx
  refine ⟨fun hlong => ?_, fun htok => ⟨fun hmany => ?_, fun hfreq => ⟨fun e he => ?_, fun bits henc =>
    ⟨fun hlong => ?_, fun hbits => ⟨fun hlong => ?_, fun hmodel => ⟨fun hlong => ?_, fun hout => ?_⟩⟩⟩⟩⟩⟩
  · exact compressFn_error.2 (.inl ⟨hlong, rfl⟩)
  · exact compressFn_error.2 (.inr ⟨htok, .inl ⟨hmany, rfl⟩⟩)
  · exact compressFn_error.2 (.inr ⟨htok, .inr ⟨hfreq, .inl he⟩⟩)
  · exact compressFn_error.2 (.inr ⟨htok, .inr ⟨hfreq, .inr ⟨bits, henc, .inl ⟨hlong, rfl⟩⟩⟩⟩)
  · exact compressFn_error.2 (.inr ⟨htok, .inr ⟨hfreq, .inr ⟨bits, henc, .inr ⟨hbits, .inl ⟨hlong, rfl⟩⟩⟩⟩⟩)
  · exact compressFn_error.2 (.inr ⟨htok, .inr ⟨hfreq, .inr ⟨bits, henc, .inr ⟨hbits, .inr ⟨hmodel, hlong, rfl⟩⟩⟩⟩⟩)
  · cases useCtx <;> exact compressFn_ok.2 ⟨bits, htok, hfreq, henc, hbits, hmodel, hout, rfl⟩

/-! ## Decompression -/

/-- 44_container_codec.md R215, R217: the first stage after the header that fails; the header bounds the pad, so that UNPACK has one
check left. -/
theorem decompressFn_error {c : Config} {b : List Byte} {h : Header} {e : CmdError} (hp : parseHeader b = .ok h) :
    let packed := (findTrailer h.payload).1
    let bits := unpackBits packed h.pad
    let tb := hufDec h.cb bits
    decompressFn c b = .error e ↔
      ((packed = [] ∧ 0 < h.pad) ∧ .corruptContainer .padWithoutPayload = e) ∨ (packed ≠ [] ∨ h.pad = 0) ∧
      ((c.maxBits < bits.length ∧ .capacity .bits = e) ∨ bits.length ≤ c.maxBits ∧
      ((c.maxTok < tb.length ∧ .capacity .tok = e) ∨ tb.length ≤ c.maxTok ∧
      (lzDec c tb = .error e ∨ ∃ r, lzDec c tb = .ok r ∧ c.maxOut < r.1.length ∧ .capacity .outBuf = e))) := by
  have hpad := parseHeader_pad_le hp
  simp only [decompressFn, hp, bind_error, unpack_eq_error, unpack_eq_ok, check_eq_error, check_eq_ok, reduceCtorEq,
    and_false, exists_const, or_false, false_or, decide_eq_true_eq, decide_eq_false_iff_not, Nat.not_le, Except.ok.injEq,
    exists_and_left, exists_eq_left', hpad, hpad.not_gt, false_and, true_and, and_assoc]

/-- Settles O52: after the header the first stage that fails decides (`decompressFn_error`), a pipeline that passes gives
`decompressFn_ok`, and the two nested checks of the trailer are one conjunction. -/
theorem decompressStagesInOrder : Obligations.DecompressStagesInOrder := by
  unfold Obligations.DecompressStagesInOrder
  refine ⟨fun c b => ⟨fun e he => ?_, fun h hp => ⟨fun hempty => ?_, fun hpayload => ⟨fun hlong => ?_, fun hbits =>
    ⟨fun hlong => ?_, fun htok => ⟨fun e he => ?_, fun out ntok hdec => ⟨fun hlong => ?_, fun hout => ?_⟩⟩⟩⟩⟩⟩,
    fun c tail => ?_⟩
  · exact bind_error.2 (.inl he)
  · exact (decompressFn_error hp).2 (.inl ⟨hempty, rfl⟩)
  · exact (decompressFn_error hp).2 (.inr ⟨hpayload, .inl ⟨hlong, rfl⟩⟩)
  · exact (decompressFn_error hp).2 (.inr ⟨hpayload, .inr ⟨hbits, .inl ⟨hlong, rfl⟩⟩⟩)
  · exact (decompressFn_error hp).2 (.inr ⟨hpayload, .inr ⟨hbits, .inr ⟨htok, .inl he⟩⟩⟩)
  · exact (decompressFn_error hp).2 (.inr ⟨hpayload, .inr ⟨hbits, .inr ⟨htok, .inr ⟨_, hdec, hlong, rfl⟩⟩⟩⟩)
  · exact decompressFn_ok.2 ⟨h, _, _, hp, unpack_eq_ok.2 ⟨parseHeader_pad_le hp, hpayload, rfl⟩, hbits, htok, hdec, hout, rfl⟩
  · exact (ite_and ..).symm

/-! ## What follows the last marker -/

/-- What a front that holds the header, a marker and a tail without a later marker decode to: only the model depends on the tail. -/
theorem decompressFn_append_marker {c : Config} {front tail : List Byte} {r : Decompressed}
    (hlen : 5 + be32 front ≤ front.length)
    (hlast : ∀ q, front.length < q → ¬ marker <+: (front ++ marker ++ tail).drop q) :
    decompressFn c (front ++ marker ++ tail) = .ok r ↔ ∃ h bits q, parseHeader front = .ok h ∧
      unpack h.payload h.pad = .ok bits ∧ bits.length ≤ c.maxBits ∧ (hufDec h.cb bits).length ≤ c.maxTok ∧
      lzDec c (hufDec h.cb bits) = .ok q ∧ q.1.length ≤ c.maxOut ∧
      ⟨q.1, q.2, h.cb, bits, h.pad, true, trailerModel c tail⟩ = r := by
  rw [List.append_assoc] at hlast ⊢
  have htrailer : ∀ h, parseHeader front = .ok h → findTrailer (h.payload ++ (marker ++ tail)) = (h.payload, some tail) := by
    intro h hp
    obtain ⟨-, -, cb, -, rfl⟩ := parseHeader_ok.1 hp
    refine findTrailer_append_marker fun q hq => ?_
    rw [List.length_drop] at hq
    rw [← List.drop_append_of_le_length (by omega), List.drop_drop]
    exact hlast _ (by omega)
  rw [decompressFn_ok]
  constructor
  · rintro ⟨h, bits, q, hp, hrest⟩
    obtain ⟨h', hp', rfl⟩ := (parseHeader_append hlen _).1 hp
    rw [htrailer h' hp'] at hrest
    exact ⟨h', bits, q, hp', hrest⟩
  · rintro ⟨h, bits, q, hp, hrest⟩
    refine ⟨_, bits, q, (parseHeader_append hlen _).2 ⟨h, hp, rfl⟩, ?_⟩
    rw [htrailer h hp]
    exact hrest

/-- Settles O39: the stages read the tail for its model bytes alone. -/
theorem trailerIsAdvisory : Obligations.TrailerIsAdvisory := by
  unfold Obligations.TrailerIsAdvisory
  intro c front tail tail' r hlen hlast hlast' hr
  obtain ⟨h, bits, q, hp, hunpack, hbits, htok, hdec, hout, rfl⟩ := (decompressFn_append_marker hlen hlast).1 hr
  exact ⟨_, (decompressFn_append_marker hlen hlast').2 ⟨h, bits, q, hp, hunpack, hbits, htok, hdec, hout, rfl⟩,
    rfl, rfl, rfl, rfl, rfl, rfl, rfl⟩

/-! ## The round trip -/

/-- The bytes of a blob from the payload's start on (44_container_codec.md R210). -/
def payloadBytes (packed : List Byte) (useCtx : Bool) (model : List Byte) : List Byte :=
  packed ++ if useCtx then marker ++ (le32Bytes model.length ++ model) else []

theorem assemble_eq (text : List Byte) (pad : Nat) (packed : List Byte) (useCtx : Bool) (model : List Byte) :
    assemble text pad packed useCtx model =
      be32Bytes text.length ++ (text ++ BitVec.ofNat 8 pad :: payloadBytes packed useCtx model) := by
  cases useCtx <;> simp [assemble, payloadBytes]

theorem drop_assemble (text : List Byte) (pad : Nat) (packed : List Byte) (useCtx : Bool) (model : List Byte) (k : Nat) :
    (assemble text pad packed useCtx model).drop (5 + text.length + k) = (payloadBytes packed useCtx model).drop k := by
  rw [assemble_eq, show 5 + text.length + k = (be32Bytes text.length).length + (text.length + (k + 1)) by
    rw [be32Bytes_length]; omega, List.drop_length_add_append, List.drop_length_add_append, List.drop_succ_cons]

/-- 44_container_codec.md R210, R212: the header reads back what ASSEMBLE wrote. -/
theorem parseHeader_assemble {text packed model : List Byte} {pad : Nat} {useCtx : Bool} {cb : Codebook}
    (hlen : text.length < 2 ^ 32) (hpad : pad ≤ 7) (hcb : cbParse text = .ok cb) :
    parseHeader (assemble text pad packed useCtx model) = .ok ⟨pad, cb, payloadBytes packed useCtx model⟩ := by
  have hbe : be32 (assemble text pad packed useCtx model) = text.length := by
    rw [assemble_eq]
    exact be32_be32Bytes_append hlen _
  have htext : ((assemble text pad packed useCtx model).drop 4).take text.length = text := by
    rw [assemble_eq, List.drop_left' (be32Bytes_length _), List.take_left]
  have hbyte : ((assemble text pad packed useCtx model).getD (4 + text.length) 0#8).toNat = pad := by
    rw [assemble_eq, ← List.append_assoc, List.getD_append_right _ _ _ _ (by simp)]
    simp only [List.length_append, be32Bytes_length, Nat.sub_self, List.getD_cons_zero, BitVec.toNat_ofNat]
    exact Nat.mod_eq_of_lt (by omega)
  have hpayload := drop_assemble text pad packed useCtx model 0
  refine parseHeader_ok.2 ?_
  rw [hbe, htext, hbyte, show 4 + text.length + 1 = 5 + text.length + 0 by omega, hpayload]
  refine ⟨?_, hpad, cb, hcb, rfl⟩
  rw [assemble_length]
  omega

/-- 44_container_codec.md R214: the model of a trailer that COMPRESS wrote. -/
theorem trailerModel_le32Bytes_append {c : Config} {model : List Byte} (hcap : c.maxModel < 2 ^ 32)
    (hlen : model.length ≤ c.maxModel) : trailerModel c (le32Bytes model.length ++ model) = some model := by
  simp [trailerModel, le32_le32Bytes_append (hlen.trans_lt hcap), hlen, List.drop_left' (le32Bytes_length _)]

/-- What FIND_TRAILER gives on the payload of a blob, with the proviso of 44_container_codec.md R220. -/
theorem findTrailer_payloadBytes {packed model : List Byte} {useCtx : Bool}
    (h : ∀ q, marker <+: (payloadBytes packed useCtx model).drop q → useCtx = true ∧ q = packed.length) :
    findTrailer (payloadBytes packed useCtx model) =
      (packed, if useCtx then some (le32Bytes model.length ++ model) else none) := by
  cases useCtx with
  | false =>
    rw [findTrailer_of_no_marker fun q hq => absurd (h q hq).1 (by decide)]
    exact congrArg (·, none) (List.append_nil packed)
  | true => exact findTrailer_append_marker fun q hlt hq => hlt.ne' (h q hq).2

theorem length_text_le_assemble (text : List Byte) (pad : Nat) (packed : List Byte) (useCtx : Bool) (model : List Byte) :
    text.length ≤ (assemble text pad packed useCtx model).length := by
  rw [assemble_length]
  omega

/-- DECOMPRESS undoes ASSEMBLE, PACK, the encoder and the matcher, where no marker but the trailer's own stands in the payload. -/
theorem decompressFn_assemble {c : Config} {cb : Codebook} {tb data model : List Byte} {bits : List Bool} {ntok : Nat}
    {useCtx : Bool} (hlegal : c.legal = true) (hvalid : Codebook.Valid cb) (hfree : Codebook.PrefixFree cb)
    (htext : (cbText cb).length < 2 ^ 32) (henc : hufEnc cb tb = .ok bits) (hdec : lzDec c tb = .ok (data, ntok))
    (hbits : bits.length ≤ c.maxBits) (htok : tb.length ≤ c.maxTok) (hdata : data.length ≤ c.maxOut)
    (hmodel : useCtx = true → model.length ≤ c.maxModel)
    (hmarker : ∀ q, marker <+: (payloadBytes (pack bits).1 useCtx model).drop q → useCtx = true ∧ q = (pack bits).1.length) :
    decompressFn c (assemble (cbText cb) (pack bits).2 (pack bits).1 useCtx model) =
      .ok ⟨data, ntok, cb, bits, (pack bits).2, useCtx, if useCtx then some model else none⟩ := by
  have hcb : cbParse (cbText cb) = .ok cb := (codebookTextRoundTrip.2 cb hvalid).1
  have htrailer := findTrailer_payloadBytes hmarker
  have htb := hufDec_of_hufEnc hvalid hfree henc
  rw [decompressFn_ok]
  refine ⟨_, bits, (data, ntok), parseHeader_assemble htext (pack_pad_le bits) hcb, ?_, hbits, ?_, ?_, hdata, ?_⟩
  · rw [htrailer]
    exact bitPackRoundTrip bits
  · rwa [htb]
  · rwa [htb]
  · rw [htrailer]
    cases useCtx with
    | false => rfl
    | true =>
      obtain ⟨-, hcap⟩ := Config.capacities_lt_of_legal hlegal
      rw [if_pos rfl, if_pos rfl, Option.bind_some, trailerModel_le32Bytes_append hcap (hmodel rfl), Option.isSome_some]

/-- Settles O40: each stage of DECOMPRESS undoes one of COMPRESS. -/
theorem containerRoundTrip : Obligations.ContainerRoundTrip := by
  unfold Obligations.ContainerRoundTrip
  intro c data useCtx r hlegal hr hdata hmarker
  have hvalid := compressFn_cb_valid hr
  obtain ⟨bits, htok, -, henc, hbits, hmodel, hblob, rfl⟩ := compressFn_ok.1 hr
  obtain ⟨hcap, -⟩ := Config.capacities_lt_of_legal hlegal
  have htext := ((length_text_le_assemble ..).trans hblob).trans_lt hcap
  refine decompressFn_assemble hlegal hvalid (codebookOf_prefixFree _) htext henc (matcherRoundTrip c data hlegal) hbits htok
    hdata hmodel fun q hq => ?_
  obtain ⟨hctx, heq⟩ := hmarker _ (Nat.le_add_right _ q) ((drop_assemble ..).symm ▸ hq)
  exact ⟨hctx, Nat.add_left_cancel heq⟩

end Sys2Proof.Machine
end

section
/-! PROOFS. The commands COMPRESS (O49) and DECOMPRESS (O50). -/

namespace Sys2Proof.Machine

/-! ## What both commands end with -/

theorem Config.maxTok_lt_of_legal {c : Config} (h : c.legal = true) : c.maxTok < 2 ^ 32 := by
  simp only [Config.legal, Bool.and_eq_true, decide_eq_true_eq] at h
  omega

/-- `s` with the outputs that both pipelines write (44_container_codec.md R218, R219). -/
def State.putPipeline (s : State) (out : List Byte) (ntok : Nat) (cb : Codebook) (bits : List Bool) (pad : Nat)
    (model : List Byte) : State :=
  (((((s.putOut out).putTokCount ntok).putCodebook cb).putBits bits).putPad pad).putModel model

/-- The registers and buffers that both pipelines write hold these outputs. -/
def State.HoldsPipeline (t : State) (out : List Byte) (ntok : Nat) (cb : Codebook) (bits : List Bool) (pad : Nat)
    (model : List Byte) : Prop :=
  Memory.HoldsExactly t.outBuf out ∧ t.outLen.toNat = out.length ∧ t.tokCount.toNat = ntok ∧
    t.cb = cb ∧ t.cbCount.toNat = cb.length ∧ Memory.HoldsExactly t.bitsBuf bits ∧ t.bitsLen.toNat = bits.length ∧
    t.pad.toNat = pad ∧ Memory.HoldsExactly t.modelBuf model ∧ t.modelLen.toNat = model.length

theorem State.putCompressed_eq (s : State) (r : Compressed) :
    s.putCompressed r = s.putPipeline r.blob r.toks.length r.cb r.bits r.pad r.model := rfl

theorem State.putDecompressed_eq (s : State) (r : Decompressed) : s.putDecompressed r =
    (s.putPipeline r.out r.ntok r.cb r.bits r.pad (r.model.getD [])).setTrailerFlags r.present r.model.isSome := rfl

section
variable {s : State} {out model : List Byte} {ntok pad : Nat} {cb : Codebook} {bits : List Bool}

/-- Outputs that fit their buffers and registers are held as they are. -/
theorem State.holdsPipeline_putPipeline (hlegal : s.cfg.legal = true) (hout : out.length ≤ s.cfg.maxOut)
    (hntok : ntok ≤ s.cfg.maxTok) (hcb : Codebook.Valid cb) (hbits : bits.length ≤ s.cfg.maxBits) (hpad : pad ≤ 7)
    (hmodel : model.length ≤ s.cfg.maxModel) :
    (s.putPipeline out ntok cb bits pad model).HoldsPipeline out ntok cb bits pad model := by
  obtain ⟨hmaxOut, hmaxModel⟩ := Config.capacities_lt_of_legal hlegal
  exact ⟨Memory.ofList_holdsExactly out, toNat_ofNat_of_le_capacity hout hmaxOut,
    toNat_ofNat_of_le_capacity hntok (Config.maxTok_lt_of_legal hlegal), rfl, hcb.toNat_cbCount,
    Memory.ofList_holdsExactly bits, toNat_ofNat_of_le_capacity hbits (Config.maxBits_lt_of_legal hlegal),
    (BitVec.toNat_ofNat _ _).trans (Nat.mod_eq_of_lt (by omega)), Memory.ofList_holdsExactly model,
    toNat_ofNat_of_le_capacity hmodel hmaxModel⟩

theorem State.keepsAllBut_putPipeline :
    State.KeepsAllBut (destSet (.compress false)) s (s.putPipeline out ntok cb bits pad model) := by
  simp [State.KeepsAllBut, Memory.SameCells, destSet, State.putPipeline]

theorem State.keepsTrailerFlags_putPipeline :
    State.KeepsTrailerFlags s (s.putPipeline out ntok cb bits pad model) := by
  simp [State.KeepsTrailerFlags, State.putPipeline]

/-- Neither the end of a command nor the trailer flags touch an output that both pipelines write. -/
theorem State.HoldsPipeline.endDone {u : State} (h : u.HoldsPipeline out ntok cb bits pad model) :
    u.endDone.HoldsPipeline out ntok cb bits pad model := h

theorem State.HoldsPipeline.setTrailerFlags {u : State} (h : u.HoldsPipeline out ntok cb bits pad model)
    (present valid : Bool) : (u.setTrailerFlags present valid).HoldsPipeline out ntok cb bits pad model := h

theorem State.KeepsAllBut.endDone {ds : List Dest} {u : State} (h : State.KeepsAllBut ds s u) :
    State.KeepsAllBut ds s u.endDone := h

theorem State.KeepsAllBut.setTrailerFlags {ds : List Dest} {u : State} (h : State.KeepsAllBut ds s u)
    (present valid : Bool) : State.KeepsAllBut ds s (u.setTrailerFlags present valid) := h

theorem State.KeepsTrailerFlags.endDone {u : State} (h : State.KeepsTrailerFlags s u) :
    State.KeepsTrailerFlags s u.endDone := h

end

/-! ## COMPRESS -/

section
variable {s : State} {data : List Byte} {useCtx : Bool}

theorem compressBody_error {e : CmdError} :
    compressBody useCtx s data = .error e ↔ compressFn s.cfg data useCtx = .error e := by
  simp only [compressBody, bind_error, reduceCtorEq, and_false, exists_false, or_false]

/-- 44_container_codec.md R216: the numbers of a compression that succeeds fit TOK_COUNT and PAD, and USE_CTX = 0 gives no model. -/
theorem compressFn_bounds {c : Config} {r : Compressed} (h : compressFn c data useCtx = .ok r) :
    r.toks.length ≤ c.maxTok ∧ r.pad ≤ 7 ∧ (useCtx = false → r.model = []) := by
  obtain ⟨bits, htok, -, -, -, -, -, rfl⟩ := compressFn_ok.1 h
  refine ⟨(length_le_ser_length _).trans htok, pack_pad_le bits, ?_⟩
  rintro rfl
  rfl

end

/-- Settles O49: the errors of the pipeline, then its outputs. -/
theorem compressCommand : Obligations.CompressCommand := by
  unfold Obligations.CompressCommand
  refine ⟨by decide, by decide, fun s useCtx hlegal => ⟨State.failsWith_inTooLong (i := .compress useCtx) rfl,
    fun data hin hfits => ?_⟩⟩
  have hop := State.inOperand_eq hin hfits
  refine ⟨fun e herr => ?_, fun r hr => ?_⟩
  · exact State.failsWith_of_exec (i := .compress useCtx) (runCommand_error hop (compressBody_error.2 herr))
  · obtain ⟨hout, hbits, hmodel⟩ := compressFn_fits hr
    obtain ⟨htok, hpad, hempty⟩ := compressFn_bounds hr
    have hexec := runCommand_done (ds := destSet (.compress useCtx)) (s := s) hop
      (compressBody_ok.2 ⟨r, hr, s.putCompressed_eq r⟩)
    obtain ⟨hblob, hlen, hcount, hcb, hcbCount, hbuf, hbitsLen, hpadReg, hmodelBuf, hmodelLen⟩ :=
      (State.holdsPipeline_putPipeline hlegal hout htok (compressFn_cb_valid hr) hbits hpad hmodel).endDone
    exact ⟨_, hexec, State.endedDone_endDone _, hblob, hlen, hcount, hcb, hcbCount, hbuf, hbitsLen, hpadReg, hmodelBuf, hmodelLen,
      hempty, State.keepsAllBut_putPipeline.endDone, State.keepsTrailerFlags_putPipeline.endDone⟩

/-! ## DECOMPRESS -/

section
variable {s : State} {b : List Byte}

theorem decompressBody_error {e : CmdError} : decompressBody s b = .error e ↔ decompressFn s.cfg b = .error e := by
  simp only [decompressBody, bind_error, reduceCtorEq, and_false, exists_false, or_false]

/-- 44_container_codec.md R217: the numbers of a decompression that succeeds fit TOK_COUNT and PAD. -/
theorem decompressFn_bounds {c : Config} {r : Decompressed} (h : decompressFn c b = .ok r) :
    r.ntok ≤ c.maxTok ∧ r.pad ≤ 7 := by
  obtain ⟨hd, bits, q, hp, -, -, htok, hdec, -, rfl⟩ := decompressFn_ok.1 h
  exact ⟨(lzDec_eq_ok.1 hdec).tokens_le_length.trans htok, parseHeader_pad_le hp⟩

/-- DECOMPRESS that fails, the trailer flags of its destination set left to `EndedError`. -/
theorem State.FailsWith.without_trailerFlags {code : BitVec 8} {info : Word}
    (h : s.FailsWith .decompress (destSet .decompress) code info) :
    s.FailsWith .decompress (destSet (.compress false)) code info := by
  obtain ⟨t, hexec, hended, hcleared, hkeeps⟩ := h
  refine ⟨t, hexec, hended, ?_, ?_⟩
  · simpa [State.Cleared, destSet] using hcleared
  · simpa [State.KeepsAllBut, destSet] using hkeeps

end

/-- Settles O50: the errors of the pipeline, then its outputs. -/
theorem decompressCommand : Obligations.DecompressCommand := by
  unfold Obligations.DecompressCommand
  refine ⟨by decide, fun s hlegal => ⟨fun hlong => ?_, fun b hin hfits => ⟨fun e herr => ?_, fun r hr => ?_⟩⟩⟩
  · exact (State.failsWith_inTooLong (i := .decompress) rfl hlong).without_trailerFlags
  · exact (State.failsWith_of_exec (i := .decompress)
      (runCommand_error (State.inOperand_eq hin hfits) (decompressBody_error.2 herr))).without_trailerFlags
  · obtain ⟨hout, hbits, hmodel, -⟩ := decompressFn_fits hr
    obtain ⟨htok, hpad⟩ := decompressFn_bounds hr
    have hexec := runCommand_done (ds := destSet .decompress) (s := s) (State.inOperand_eq hin hfits)
      (decompressBody_ok.2 ⟨r, hr, s.putDecompressed_eq r⟩)
    obtain ⟨hblob, hlen, hcount, hcb, hcbCount, hbuf, hbitsLen, hpadReg, hmodelBuf, hmodelLen⟩ :=
      ((State.holdsPipeline_putPipeline hlegal hout htok (decompressFn_cb_valid hr) hbits hpad hmodel).setTrailerFlags
        r.present r.model.isSome).endDone
    exact ⟨_, hexec, State.endedDone_endDone _, hblob, hlen, hcount, hcb, hcbCount, hbuf, hbitsLen, hpadReg, hmodelBuf, hmodelLen,
      rfl, rfl, (State.keepsAllBut_putPipeline.setTrailerFlags _ _).endDone⟩

end Sys2Proof.Machine
end

section
/-! PROOFS. The destination sets (O53): a command that succeeds writes only items of its set, an error clears them all. -/

namespace Sys2Proof.Machine

/-- The destination set without the trailer flags, which end as the error record does (60_exceptions.md R243, R244). -/
def destItems (i : Instr) : List Dest := (destSet i).filter fun d => d != .ctxPresent && d != .ctxValid

/-! ## The trailer flags of a destination set -/

section
variable {i : Instr} {s t : State}

theorem State.keepsAllBut_destItems : State.KeepsAllBut (destItems i) s t ↔ State.KeepsAllBut (destSet i) s t := by
  simp [State.KeepsAllBut, destItems]

theorem State.cleared_destItems : t.Cleared (destItems i) ↔ t.Cleared (destSet i) := by
  simp [State.Cleared, destItems]

end

/-! ## Writing an output that the set lists -/

section
variable {ds : List Dest} {s u : State}

theorem State.KeepsAllBut.refl : State.KeepsAllBut ds s s := by simp [State.KeepsAllBut, Memory.SameCells]

theorem State.KeepsAllBut.putOut (h : State.KeepsAllBut ds s u) (hds : [.out, .outLen] ⊆ ds) (bytes : List Byte) :
    State.KeepsAllBut ds s (u.putOut bytes) := by
  obtain ⟨hbuf, hlen⟩ : .out ∈ ds ∧ .outLen ∈ ds := by simpa using hds
  simpa [State.KeepsAllBut, hbuf, hlen] using h

theorem State.KeepsAllBut.putBits (h : State.KeepsAllBut ds s u) (hds : [.bits, .bitsLen] ⊆ ds) (bits : List Bool) :
    State.KeepsAllBut ds s (u.putBits bits) := by
  obtain ⟨hbuf, hlen⟩ : .bits ∈ ds ∧ .bitsLen ∈ ds := by simpa using hds
  simpa [State.KeepsAllBut, hbuf, hlen] using h

theorem State.KeepsAllBut.putCodebook (h : State.KeepsAllBut ds s u) (hds : [.cb, .cbCount] ⊆ ds) (cb : Codebook) :
    State.KeepsAllBut ds s (u.putCodebook cb) := by
  obtain ⟨hcb, hcount⟩ : .cb ∈ ds ∧ .cbCount ∈ ds := by simpa using hds
  simpa [State.KeepsAllBut, hcb, hcount] using h

theorem State.KeepsAllBut.putTokCount (h : State.KeepsAllBut ds s u) (hds : .tokCount ∈ ds) (n : Nat) :
    State.KeepsAllBut ds s (u.putTokCount n) := by
  simpa [State.KeepsAllBut, hds] using h

theorem State.KeepsAllBut.putPad (h : State.KeepsAllBut ds s u) (hds : .pad ∈ ds) (pad : Nat) :
    State.KeepsAllBut ds s (u.putPad pad) := by
  simpa [State.KeepsAllBut, hds] using h

end

/-! ## What each command leaves alone -/

/-- `u` differs from `s` only in the destination set of the command; the trailer flags are in DECOMPRESS's alone. -/
def State.WritesWithin (i : Instr) (s u : State) : Prop :=
  State.KeepsAllBut (destItems i) s u ∧ (i ≠ .decompress → State.KeepsTrailerFlags s u)

/-- A command whose body writes within its destination set ends with that, or with an error. -/
theorem runCommand_writesWithin {α : Type} {i : Instr} {input : Operand α} {s t : State}
    {body : List α → Except CmdError State} (hbody : ∀ vs u, body vs = .ok u → State.WritesWithin i s u)
    (h : runCommand (destSet i) input s body = .next t) :
    (∃ u, State.WritesWithin i s u ∧ t = u.endDone) ∨ ∃ e, t = s.raiseError (destSet i) e :=
  (runCommand_next h).imp_left fun ⟨vs, u, _, hu, ht⟩ => ⟨u, hbody vs u hu, ht⟩

/-- 60_exceptions.md R243, R244: a command that ends has written items of its destination set alone, or has raised an error. -/
theorem exec_writesWithin {i : Instr} {s t : State} (h : exec i s = .next t) :
    (∃ u, State.WritesWithin i s u ∧ t = u.endDone) ∨ ∃ e, t = s.raiseError (destSet i) e := by
  have hsame : State.KeepsAllBut (destItems i) s s := .refl
  have hflags : State.KeepsTrailerFlags s s := ⟨rfl, rfl⟩
  cases i with
  | compress useCtx =>
    refine runCommand_writesWithin (fun data u hu => ?_) h
    obtain ⟨r, -, rfl⟩ := compressBody_ok.1 hu
    exact ⟨State.keepsAllBut_putPipeline, fun _ => State.keepsTrailerFlags_putPipeline⟩
  | decompress =>
    refine runCommand_writesWithin (fun b u hu => ?_) h
    obtain ⟨r, -, rfl⟩ := decompressBody_ok.1 hu
    exact ⟨State.keepsAllBut_putPipeline.setTrailerFlags _ _, fun hne => absurd rfl hne⟩
  | lzEncode =>
    refine runCommand_writesWithin (fun data u hu => ?_) h
    obtain ⟨-, rfl⟩ := lzEncodeBody_ok.1 hu
    exact ⟨(hsame.putOut (by decide) _).putTokCount (by decide) _, fun _ => hflags⟩
  | lzDecode =>
    refine runCommand_writesWithin (fun tb u hu => ?_) h
    obtain ⟨r, -, -, rfl⟩ := lzDecodeBody_ok.1 hu
    exact ⟨(hsame.putOut (by decide) _).putTokCount (by decide) _, fun _ => hflags⟩
  | hufBuild =>
    refine runCommand_writesWithin (fun data u hu => ?_) h
    obtain ⟨-, -, rfl⟩ := hufBuildBody_ok.1 hu
    exact ⟨(hsame.putCodebook (by decide) _).putOut (by decide) _, fun _ => hflags⟩
  | hufEncode =>
    refine runCommand_writesWithin (fun data u hu => ?_) h
    obtain ⟨bits, -, -, rfl⟩ := hufEncodeBody_ok.1 hu
    exact ⟨hsame.putBits (by decide) bits, fun _ => hflags⟩
  | hufDecode =>
    refine runCommand_writesWithin (fun bits u hu => ?_) h
    obtain ⟨-, rfl⟩ := hufDecodeBody_ok.1 hu
    exact ⟨hsame.putOut (by decide) _, fun _ => hflags⟩
  | cbLoad =>
    refine runCommand_writesWithin (fun text u hu => ?_) h
    obtain ⟨cb, -, rfl⟩ := cbLoadBody_ok.1 hu
    exact ⟨hsame.putCodebook (by decide) cb, fun _ => hflags⟩
  | bitPack =>
    refine runCommand_writesWithin (fun bits u hu => ?_) h
    obtain ⟨-, rfl⟩ := bitPackBody_ok.1 hu
    exact ⟨(hsame.putOut (by decide) _).putPad (by decide) _, fun _ => hflags⟩
  | bitUnpack =>
    refine runCommand_writesWithin (fun bytes u hu => ?_) h
    obtain ⟨bits, -, -, rfl⟩ := bitUnpackBody_ok.1 hu
    exact ⟨hsame.putBits (by decide) bits, fun _ => hflags⟩

/-- Settles O53: each listed set is `destItems`; a command that succeeds writes within it, an error clears it and nothing else. -/
theorem destinationSets : Obligations.DestinationSets := by
  unfold Obligations.DestinationSets
  refine ⟨fun s => s.keepsAllBut_raiseError [] _, fun i ds hmem s t h => ?_⟩
  obtain rfl : ds = destItems i := (by decide : ∀ p ∈ _, p.2 = destItems p.1) (i, ds) hmem
  obtain ⟨u, ⟨hkeeps, hflags⟩, rfl⟩ | ⟨e, rfl⟩ := exec_writesWithin h
  · exact ⟨hkeeps.endDone, fun herr => absurd herr (by simp), fun _ => ⟨u.endedDone_endDone, hflags⟩⟩
  · exact ⟨State.keepsAllBut_destItems.2 (s.keepsAllBut_raiseError _ e),
      fun _ => ⟨s.endedError_raiseError _ e, e.code_range.1, State.cleared_destItems.2 (s.cleared_raiseError _ e)⟩,
      fun hok => absurd hok (by simp)⟩

end Sys2Proof.Machine
end

section
/-! PROOFS. Whose move a step is (O11), the platform's reset, alone or beside a host access (O2), and the end of a WAIT (O60). -/

namespace Sys2Proof.Machine

/-! ## Whose move a step is -/

/-- 70_reset_and_hazards.md R285: while IDLE, or with host steps to come first, it is not the engine's turn. -/
theorem State.engineTurn_eq_false {s : State} {op : HostOp} {rest : List HostOp} (hturn : s.phase = .idle ∨ s.engineDelay ≠ 0)
    (hhost : s.host = op :: rest) : s.engineTurn = false := by
  obtain hphase | hdelay := hturn
  · simp [State.engineTurn, State.busy_eq_false.2 hphase]
  · simp [State.engineTurn, hhost, hdelay]

/-- 70_reset_and_hazards.md R285: where it is not the engine's turn, a step is the host's next operation. -/
theorem step_eq_hostStep {s : State} {op : HostOp} {rest : List HostOp} (hturn : s.engineTurn = false)
    (hhost : s.host = op :: rest) : step s = hostStep s op rest := by
  simp [step, hturn, hhost]

/-- 60_exceptions.md R256: an IDLE block with nothing pending holds its state. -/
theorem step_of_idle_of_nothing_pending {s : State} (hphase : s.phase = .idle) (hhost : s.host = []) :
    step s = .next s := by
  simp [step, State.engineTurn, State.busy_eq_false.2 hphase, hhost]

/-- Settles O11: the engine moves exactly when its turn has come, and `withFetchWord` makes it come. -/
theorem stepRunsDecodedCommand : Obligations.StepRunsDecodedCommand := by
  unfold Obligations.StepRunsDecodedCommand
  refine ⟨fun s i hphase hturn hi => (step_eq_engineStep hphase hturn).trans (engineStep_of_decode hi),
    fun s op rest hturn hhost => step_eq_hostStep (State.engineTurn_eq_false hturn hhost) hhost,
    fun s hphase hhost => step_of_idle_of_nothing_pending hphase hhost, fun s i => ?_⟩
  refine (step_eq_engineStep rfl (.inr rfl)).trans (engineStep_of_decode ?_)
  have hword : BitVec.ofNat 32 ((encode i).toNat % 2 ^ 32) = encode i := by
    rw [Nat.mod_eq_of_lt (encode i).isLt, BitVec.ofNat_toNat, BitVec.setWidth_eq]
  exact (congrArg decode hword).trans (decode_encode i)

/-! ## Reset -/

/-- 10_state.md R44: the reset step leaves the reset table, whatever answer stands on the port. -/
theorem State.blockIsReset_afterReset (s : State) (reply : HostReply) :
    State.BlockIsReset { s.afterReset with reply := reply } :=
  resetLeavesBlock

/-- A host access changes neither the parameters nor what is pending. -/
theorem hostAccess_keeps_cfg_host {s t : State} {a : Access} (h : hostAccess s a = .next t) :
    t.cfg = s.cfg ∧ t.host = s.host := by
  cases a with
  | read sp addr n =>
    obtain ⟨target, r, -, -, rfl⟩ := hostAccess_read_next h
    exact ⟨rfl, rfl⟩
  | write sp addr n v =>
    obtain ⟨target, -, rfl⟩ := hostAccess_write_next h
    rw [State.answerWrite_cfg, State.answerWrite_host]
    unfold State.writeTarget
    split
    · exact ⟨rfl, rfl⟩
    · cases target with
      | register r => cases r <;> exact ⟨rfl, rfl⟩
      | cell sp addr => cases sp <;> exact ⟨rfl, rfl⟩

/-- Settles O2: the reset step is `afterReset`, and the free value says on which side of it the access falls. -/
theorem resetEventResetsBlock : Obligations.ResetEventResetsBlock := by
  unfold Obligations.ResetEventResetsBlock
  refine ⟨fun s rest hturn hhost => ?_, fun s a rest hturn hhost haccess => ?_⟩
  · exact ⟨_, step_eq_hostStep hturn hhost, State.blockIsReset_afterReset (s.takeHostOp rest) .none, rfl, rfl⟩
  · obtain ⟨u, hu⟩ := haccess
    have hstep : step s = hostResetWith (s.takeHostOp rest) a := step_eq_hostStep hturn hhost
    by_cases hfirst : Config.resetFirst (s.takeHostOp rest).epoch
    · refine .inl ⟨(s.takeHostOp rest).afterReset, State.blockIsReset_afterReset (s.takeHostOp rest) .none, rfl, rfl, ?_⟩
      rw [hstep, hostResetWith, if_pos hfirst]
    · obtain ⟨hcfg, hpending⟩ := hostAccess_keeps_cfg_host hu
      refine .inr ⟨u, { u.afterReset with reply := u.reply }, hu, ?_, State.blockIsReset_afterReset u _, hcfg, hpending, rfl⟩
      rw [hstep, hostResetWith, if_neg hfirst, hu]

/-! ## A command whose input is written ends -/

theorem Memory.readRange_of_written {α : Type} {m : List (Nat × α)} {n : Nat}
    (h : ∀ j, j < n → (Memory.read m j).isSome = true) : ∃ vs, Memory.readRange m 0 n = .ok vs := by
  cases hr : Memory.readRange m 0 n with
  | ok vs => exact ⟨vs, rfl⟩
  | error a =>
    obtain ⟨-, hlt, hnone⟩ := Memory.readRange_error hr
    simpa [hnone] using h a (by omega)

/-- 70_reset_and_hazards.md R274: a written IN range is read, or too long to be read. -/
theorem State.inOperand_ne_unwritten {s : State}
    (h : s.inLen.toNat ≤ s.cfg.maxIn → ∀ j, j < s.inLen.toNat → (Memory.read s.inBuf j).isSome = true)
    (sp : Space) (a : Nat) : s.inOperand ≠ .unwritten sp a := by
  by_cases hlen : s.inLen.toNat ≤ s.cfg.maxIn
  · obtain ⟨vs, hr⟩ := Memory.readRange_of_written (h hlen)
    simp [State.inOperand, hr, Nat.not_lt.2 hlen]
  · simp [State.inOperand_tooLong (Nat.lt_of_not_le hlen)]

/-- 70_reset_and_hazards.md R274: a written BITS range is read, or too long to be read. -/
theorem State.bitsOperand_ne_unwritten {s : State}
    (h : s.bitsLen.toNat ≤ s.cfg.maxBits → ∀ j, j < s.bitsLen.toNat → (Memory.read s.bitsBuf j).isSome = true)
    (sp : Space) (a : Nat) : s.bitsOperand ≠ .unwritten sp a := by
  by_cases hlen : s.bitsLen.toNat ≤ s.cfg.maxBits
  · obtain ⟨vs, hr⟩ := Memory.readRange_of_written (h hlen)
    simp [State.bitsOperand, hr, Nat.not_lt.2 hlen]
  · simp [State.bitsOperand_tooLong (Nat.lt_of_not_le hlen)]

/-- A command stops the machine only where its input has a cell that holds no value. -/
theorem runCommand_answers {α : Type} {ds : List Dest} {input : Operand α} {s : State}
    {body : List α → Except CmdError State} (hi : ∀ sp a, input ≠ .unwritten sp a) :
    ∃ t, runCommand ds input s body = .next t := by
  cases input with
  | tooLong e => exact ⟨_, rfl⟩
  | unwritten sp a => exact absurd rfl (hi sp a)
  | data vs =>
    cases hb : body vs with
    | ok u => exact ⟨_, runCommand_done rfl hb⟩
    | error e => exact ⟨_, runCommand_error rfl hb⟩

theorem State.Outputs.host_eq {s u : State} (h : s.Outputs u) : u.host = s.host := by
  induction h with
  | unchanged => rfl
  | out _ _ ih | bits _ _ ih | model _ _ ih | codebook _ _ ih | tokCount _ _ ih | pad _ _ ih | trailerFlags _ _ ih => exact ih

/-- A command leaves what is pending alone. -/
theorem exec_host_eq {i : Instr} {s t : State} (h : exec i s = .next t) : t.host = s.host := by
  obtain ⟨u, hu, rfl⟩ | ⟨e, rfl⟩ := exec_next_cases h
  · exact hu.host_eq
  · exact s.raiseError_host _ e

/-- 70_reset_and_hazards.md R274, R284: where the latched command finds its input written, the engine's step ends it, as it
ends an illegal word. -/
theorem engineStep_ends {s : State} (h : s.InputsWritten) :
    ∃ t, engineStep s = .next t ∧ t.phase = .idle ∧ t.host = s.host := by
  by_cases hlegal : LegalWord s.curCmd
  · obtain ⟨i, hi⟩ := exists_decode_iff_legalWord.2 hlegal
    obtain ⟨hin, hbits⟩ := h i hi
    have hanswers : ∃ t, exec i s = .next t := by
      cases hreads : readsIn i with
      | true =>
        obtain ⟨body, hexec⟩ := exec_of_readsIn hreads s
        exact hexec ▸ runCommand_answers (State.inOperand_ne_unwritten (hin hreads))
      | false =>
        obtain ⟨body, hexec⟩ := exec_of_readsBits hreads s
        exact hexec ▸ runCommand_answers (State.bitsOperand_ne_unwritten (hbits hreads))
    obtain ⟨t, ht⟩ := hanswers
    obtain ⟨hphase, -⟩ := exec_ends ht
    exact ⟨t, (engineStep_of_decode hi).trans ht, hphase, exec_host_eq ht⟩
  · exact ⟨_, engineStep_of_illegal hlegal, rfl, s.raiseError_host [] _⟩

/-! ## WAIT -/

/-- 30_encoding.md R76: a WAIT stays pending while BUSY reads 1. -/
theorem hostWait_host (s : State) : (hostWait s).host = if s.busy then .wait :: s.host else s.host := by
  simp only [hostWait]
  split <;> rfl

theorem hostWait_engineDelay (s : State) : (hostWait s).engineDelay = s.engineDelay := by
  simp only [hostWait]
  split <;> rfl

theorem hostWait_reply (s : State) : (hostWait s).reply = s.readRegister .status := by
  simp only [hostWait]
  split <;> rfl

theorem State.InputsWritten.congr {s t : State} (h : State.SameBlock s t) (hs : s.InputsWritten) : t.InputsWritten := by
  obtain ⟨hcfg, -, hcmd, -, -, -, -, -, -, hinLen, -, hbitsLen, -, -, -, -, hin, -, hbits, -⟩ := h
  unfold State.InputsWritten
  rwa [hcfg, hcmd, hinLen, hbitsLen, hin, hbits]

/-- 30_encoding.md R76: WAIT's STATUS read while IDLE answers STATUS, ends the WAIT and leaves the block alone. -/
theorem step_wait_of_idle {s : State} {rest : List HostOp} (hphase : s.phase = .idle) (hhost : s.host = .wait :: rest) :
    ∃ t, step s = .next t ∧ t.host = rest ∧ t.reply = .word s.statusWord ∧ State.SameBlock s t := by
  have hbusy : (s.takeHostOp rest).busy = false := State.busy_eq_false.2 hphase
  refine ⟨hostWait (s.takeHostOp rest), step_eq_hostStep (State.engineTurn_eq_false (.inl hphase) hhost) hhost, ?_, ?_,
    (s.sameBlock_takeHostOp rest).trans (sameBlock_hostWait _)⟩
  · simp [hostWait_host, hbusy]
  · rw [hostWait_reply, State.readRegister, hbusy]
    rfl

/-- 70_reset_and_hazards.md R285: WAIT's STATUS read while BUSY brings the engine's step one nearer and leaves the block
alone; the WAIT stays pending. -/
theorem step_wait_of_busy {s : State} {rest : List HostOp} (hphase : s.phase = .busy) (hhost : s.host = .wait :: rest)
    (hdelay : s.engineDelay ≠ 0) :
    ∃ t, step s = .next t ∧ t.host = .wait :: rest ∧ t.engineDelay = s.engineDelay - 1 ∧ State.SameBlock s t := by
  have hbusy : (s.takeHostOp rest).busy = true := State.busy_eq_true.2 hphase
  refine ⟨hostWait (s.takeHostOp rest), step_eq_hostStep (State.engineTurn_eq_false (.inr hdelay) hhost) hhost, ?_,
    hostWait_engineDelay _, (s.sameBlock_takeHostOp rest).trans (sameBlock_hostWait _)⟩
  simp [hostWait_host, hbusy]

theorem core_run_succ {s t : State} (h : step s = .next t) (k : Nat) : core.run (k + 1) s = core.run k t := by
  simp [Host.Core.run, core, h]

/-- 70_reset_and_hazards.md R284: a WAIT is over after as many STATUS reads as the engine is delayed, the engine's step, and one
STATUS read more. -/
theorem run_wait_ends {s : State} {rest : List HostOp} (hphase : s.phase = .busy) (hhost : s.host = .wait :: rest)
    (hinputs : s.InputsWritten) :
    ∃ t, core.run (s.engineDelay + 2) s = .next t ∧ t.phase = .idle ∧ t.host = rest := by
  induction hd : s.engineDelay generalizing s with
  | zero =>
    obtain ⟨t, hengine, htphase, hthost⟩ := engineStep_ends hinputs
    have hstep : step s = .next t := (step_eq_engineStep hphase (.inr hd)).trans hengine
    obtain ⟨u, hwait, huhost, -, hsame⟩ := step_wait_of_idle htphase (hthost.trans hhost)
    exact ⟨u, (core_run_succ hstep 1).trans (core_run_succ hwait 0), hsame.phase_eq.trans htphase, huhost⟩
  | succ d ih =>
    obtain ⟨t, hstep, hthost, htdelay, hsame⟩ := step_wait_of_busy hphase hhost (by omega)
    obtain ⟨u, hrun, hu⟩ := ih (hsame.phase_eq.trans hphase) hthost (hinputs.congr hsame) (by omega)
    exact ⟨u, (core_run_succ hstep (d + 2)).trans hrun, hu⟩

/-- Settles O60: the engine's delay runs out, its step ends the command, and the next STATUS read ends the WAIT. -/
theorem waitTerminates : Obligations.WaitTerminates := by
  unfold Obligations.WaitTerminates
  refine ⟨fun s rest hphase hhost hinputs => ?_, fun s rest hphase hhost => step_wait_of_idle hphase hhost⟩
  obtain ⟨t, hrun, ht⟩ := run_wait_ends hphase hhost hinputs
  exact ⟨s.engineDelay + 2, t, le_rfl, hrun, ht⟩

end Sys2Proof.Machine
end

section
/-! PROOFS. A command is a function of the inputs it reads (O55): its operand is, and its body asks the state for nothing but the
parameters, CB or PAD before it writes its outputs. -/

namespace Sys2Proof.Machine

/-! ## The operands -/

theorem Memory.readRange_congr {α : Type} {m m' : List (Nat × α)} {k n : Nat}
    (h : ∀ j, j < k + n → Memory.read m' j = Memory.read m j) : Memory.readRange m' k n = Memory.readRange m k n := by
  induction n generalizing k with
  | zero => rfl
  | succ n ih => rw [Memory.readRange, Memory.readRange, h k (by omega), ih (fun j hj => h j (by omega))]

section
variable {i : Instr} {s s' : State} (h : InputsAgree i s s')
include h

theorem InputsAgree.inOperand_eq (hi : readsIn i = true) : s'.inOperand = s.inOperand := by
  obtain ⟨hcfg, hin, -⟩ := h
  obtain ⟨hlen, hcells⟩ := hin hi
  rw [State.inOperand, State.inOperand, hcfg, hlen, Memory.readRange_congr (by simpa using hcells)]

theorem InputsAgree.bitsOperand_eq (hi : readsIn i = false) : s'.bitsOperand = s.bitsOperand := by
  obtain ⟨hcfg, -, hbits, -⟩ := h
  obtain ⟨hlen, hcells⟩ := hbits hi
  rw [State.bitsOperand, State.bitsOperand, hcfg, hlen, Memory.readRange_congr (by simpa using hcells)]

end

/-! ## The outputs of a success

Each output is written to both states and joins the items they agree on; a destination set lists the items in the order in which its
command writes them. -/

section
variable {ds : List Dest} {u u' : State} (h : SameOutputs ds u.endDone u'.endDone)
include h

theorem SameOutputs.putOut (bytes : List Byte) :
    SameOutputs (ds ++ [.out, .outLen]) (u.putOut bytes).endDone (u'.putOut bytes).endDone := by
  simp_all [SameOutputs, Memory.SameCells]

theorem SameOutputs.putBits (bits : List Bool) :
    SameOutputs (ds ++ [.bits, .bitsLen]) (u.putBits bits).endDone (u'.putBits bits).endDone := by
  simp_all [SameOutputs, Memory.SameCells]

theorem SameOutputs.putModel (model : List Byte) :
    SameOutputs (ds ++ [.model, .modelLen]) (u.putModel model).endDone (u'.putModel model).endDone := by
  simp_all [SameOutputs, Memory.SameCells]

theorem SameOutputs.putCodebook (cb : Codebook) :
    SameOutputs (ds ++ [.cb, .cbCount]) (u.putCodebook cb).endDone (u'.putCodebook cb).endDone := by
  simp_all [SameOutputs, Memory.SameCells]

theorem SameOutputs.putTokCount (n : Nat) :
    SameOutputs (ds ++ [.tokCount]) (u.putTokCount n).endDone (u'.putTokCount n).endDone := by
  simp_all [SameOutputs, Memory.SameCells]

theorem SameOutputs.putPad (pad : Nat) :
    SameOutputs (ds ++ [.pad]) (u.putPad pad).endDone (u'.putPad pad).endDone := by
  simp_all [SameOutputs, Memory.SameCells]

theorem SameOutputs.setTrailerFlags (present valid : Bool) :
    SameOutputs (ds ++ [.ctxPresent, .ctxValid]) (u.setTrailerFlags present valid).endDone
      (u'.setTrailerFlags present valid).endDone := by
  simp_all [SameOutputs, Memory.SameCells]

end

/-- 60_exceptions.md R243: two commands that succeed have the same error record. -/
theorem sameOutputs_endDone (s s' : State) : SameOutputs [] s.endDone s'.endDone := by
  simp [SameOutputs]

/-! ## The bodies -/

/-- Two runs of a body end alike: with the same outputs in `ds`, or with the same error. -/
inductive EndAlike (ds : List Dest) : Except CmdError State → Except CmdError State → Prop where
  | done {u u' : State} (h : SameOutputs ds u.endDone u'.endDone) : EndAlike ds (.ok u) (.ok u')
  | fail (e : CmdError) : EndAlike ds (.error e) (.error e)

/-- A stage that both runs share fails in both, or gives both the same to go on with. -/
theorem EndAlike.bind {α : Type} {ds : List Dest} {k k' : α → Except CmdError State} (x : Except CmdError α)
    (h : ∀ a, EndAlike ds (k a) (k' a)) : EndAlike ds (x >>= k) (x >>= k') := by
  cases x with
  | ok a => exact h a
  | error e => exact .fail e

/-- 60_exceptions.md R244: an error leaves the same in its destination set, from whatever state. -/
theorem sameOutputs_raiseError (ds : List Dest) (s s' : State) (e : CmdError) :
    SameOutputs ds (s.raiseError ds e) (s'.raiseError ds e) := by
  simp +contextual [SameOutputs, Memory.SameCells, State.raiseError_outBuf, State.raiseError_outLen, State.raiseError_tokCount,
    State.raiseError_cb, State.raiseError_cbCount, State.raiseError_bitsBuf, State.raiseError_bitsLen, State.raiseError_pad,
    State.raiseError_modelBuf, State.raiseError_modelLen]

/-- A command over the same input whose bodies end alike ends alike. -/
theorem runCommand_sameOutputs {α : Type} {ds : List Dest} {input input' : Operand α} {s s' t : State}
    {body body' : List α → Except CmdError State} (hinput : input' = input) (hbody : ∀ vs, EndAlike ds (body vs) (body' vs))
    (h : runCommand ds input s body = .next t) :
    ∃ t', runCommand ds input' s' body' = .next t' ∧ SameOutputs ds t t' := by
  subst hinput
  cases input' with
  | tooLong e =>
    cases h
    exact ⟨_, rfl, sameOutputs_raiseError ds s s' e⟩
  | unwritten sp a => cases h
  | data vs =>
    have halike := hbody vs
    simp only [runCommand] at h ⊢
    generalize body vs = r, body' vs = r' at h halike ⊢
    cases halike with
    | done hsame =>
      cases h
      exact ⟨_, rfl, hsame⟩
    | fail e =>
      cases h
      exact ⟨_, rfl, sameOutputs_raiseError ds s s' e⟩

/-! ## The commands -/

/-- 70_reset_and_hazards.md R282: a command's stages get from the state what `InputsAgree` names, and nothing else. -/
theorem exec_sameOutputs {i : Instr} {s s' t : State} (h : InputsAgree i s s') (hexec : exec i s = .next t) :
    ∃ t', exec i s' = .next t' ∧ SameOutputs (destSet i) t t' := by
  have hsame := sameOutputs_endDone s s'
  have hin := h.inOperand_eq
  have hbits := h.bitsOperand_eq
  obtain ⟨hcfg, -, -, hcb, hpad⟩ := h
  cases i with
  | compress useCtx =>
    refine runCommand_sameOutputs (hin rfl) (fun data => ?_) hexec
    rw [compressBody, compressBody, hcfg]
    exact .bind _ fun r => .done ((((((hsame.putOut _).putTokCount _).putCodebook _).putBits _).putPad _).putModel _)
  | decompress =>
    refine runCommand_sameOutputs (hin rfl) (fun b => ?_) hexec
    rw [decompressBody, decompressBody, hcfg]
    exact .bind _ fun r =>
      .done (((((((hsame.putOut _).putTokCount _).putCodebook _).putBits _).putPad _).putModel _).setTrailerFlags _ _)
  | lzEncode =>
    refine runCommand_sameOutputs (hin rfl) (fun data => ?_) hexec
    rw [lzEncodeBody, lzEncodeBody, hcfg]
    exact .bind _ fun _ => .done ((hsame.putOut _).putTokCount _)
  | lzDecode =>
    refine runCommand_sameOutputs (hin rfl) (fun tb => ?_) hexec
    rw [lzDecodeBody, lzDecodeBody, hcfg]
    exact .bind _ fun r => .bind _ fun _ => .done ((hsame.putOut _).putTokCount _)
  | hufBuild =>
    refine runCommand_sameOutputs (hin rfl) (fun data => ?_) hexec
    rw [hufBuildBody, hufBuildBody, hcfg]
    exact .bind _ fun _ => .bind _ fun _ => .done ((hsame.putCodebook _).putOut _)
  | hufEncode =>
    refine runCommand_sameOutputs (hin rfl) (fun data => ?_) hexec
    rw [hufEncodeBody, hufEncodeBody, hcfg, hcb (.inl rfl)]
    exact .bind _ fun bits => .bind _ fun _ => .done (hsame.putBits bits)
  | hufDecode =>
    refine runCommand_sameOutputs (hbits rfl) (fun bits => ?_) hexec
    rw [hufDecodeBody, hufDecodeBody, hcfg, hcb (.inr rfl)]
    exact .bind _ fun _ => .done (hsame.putOut _)
  | cbLoad =>
    refine runCommand_sameOutputs (hin rfl) (fun text => ?_) hexec
    exact .bind _ fun cb => .done (hsame.putCodebook cb)
  | bitPack =>
    refine runCommand_sameOutputs (hbits rfl) (fun bits => ?_) hexec
    rw [bitPackBody, bitPackBody, hcfg]
    exact .bind _ fun _ => .done ((hsame.putOut _).putPad _)
  | bitUnpack =>
    refine runCommand_sameOutputs (hin rfl) (fun bytes => ?_) hexec
    rw [bitUnpackBody, bitUnpackBody, hcfg, hpad rfl]
    exact .bind _ fun bits => .bind _ fun _ => .done (hsame.putBits bits)

/-- Settles O55: the operands agree, the stages are the same, and each output is written from them alone. -/
theorem commandsAreFunctionsOfInputs : Obligations.CommandsAreFunctionsOfInputs := by
  unfold Obligations.CommandsAreFunctionsOfInputs
  intro i s s' t h hexec
  exact exec_sameOutputs h hexec

end Sys2Proof.Machine
end
